-- ==== Sys2Proof/Word.lean ====
section
/-! DEFINITION. The word types of the block: every register is 32 bits wide (R7), checksums, the port and the identification
are 16-bit numbers (R31, R35, R36), and BUF is made of bytes (R11, R44). -/

namespace Sys2Proof

/-- A 32-bit register or command word (R7). -/
abbrev Word := BitVec 32

/-- A 16-bit number: a checksum, a port, an identification (R10, R13). -/
abbrev Half := BitVec 16

/-- A byte of BUF (R11). -/
abbrev Byte := BitVec 8

end Sys2Proof
end

