-- ==== Sys2Proof/Syntax.lean ====
section
/-! DEFINITION. The commands of the block (R103): one constructor per row of the opcode table. A and B are byte offsets into BUF
and L is a byte count, all unsigned (R102), so they are natural numbers; WellFormed.lean gives their ranges. -/

namespace Sys2Proof

/-- One command (R103). The arguments stand in the order of R108's assembly syntax: A, then B, then L. -/
inductive Instr where
  /-- No operation (R209). -/
  | nop
  /-- Checksum of `BUF[a..a+l)` (R145). -/
  | csum (a l : Nat)
  /-- UDP checksum over a synthesized pseudo-header and `BUF[a..a+l)` (R146). -/
  | pcsum (a l : Nat)
  /-- RESULT into `BUF[a..a+2)` (R147). -/
  | patch (a : Nat)
  /-- IPv4 header at `a` (R170). -/
  | serIp (a : Nat)
  /-- UDP header at `a` (R171). -/
  | serUdp (a : Nat)
  /-- UDP pseudo-header at `a` (R172). -/
  | serPsh (a : Nat)
  /-- NTP client request at `a` (R173). -/
  | serNtp (a : Nat)
  /-- The 76-byte datagram at `a` (R201). -/
  | assemble (a : Nat)
  /-- Parse the NTP message at `a` (R174). -/
  | decodeNtp (a : Nat)
  /-- Move `l` bytes from `b` to `a` (R207). -/
  | copy (a b l : Nat)
  /-- Clear `BUF[a..a+l)` (R208). -/
  | zero (a l : Nat)
  /-- A word with a reserved opcode 0xC to 0xF and any other 28 bits: raises ILLEGAL (R105). -/
  | reserved (op : BitVec 4) (rest : BitVec 28)
  deriving DecidableEq, Repr

end Sys2Proof
end

