-- ==== Sys2Proof/WellFormed.lean ====
section
/-! DEFINITION. Which commands an encoding can hold: the field widths of R101 and the reserved opcodes of R105. -/

namespace Sys2Proof

/-- A and B are 8-bit fields (R101). -/
def offsetOk (a : Nat) : Bool := decide (a < 2 ^ 8)

/-- L is a 9-bit field (R101). -/
def lengthOk (l : Nat) : Bool := decide (l < 2 ^ 9)

/-- The reserved opcodes are 0xC to 0xF (R105). -/
def reservedOk (op : BitVec 4) : Bool := decide (0xC ≤ op.toNat)

/-- A command whose operands fit the fields of its encoding. -/
def Instr.wf : Instr → Bool
  | .nop => true
  | .csum a l => offsetOk a && lengthOk l
  | .pcsum a l => offsetOk a && lengthOk l
  | .patch a => offsetOk a
  | .serIp a => offsetOk a
  | .serUdp a => offsetOk a
  | .serPsh a => offsetOk a
  | .serNtp a => offsetOk a
  | .assemble a => offsetOk a
  | .decodeNtp a => offsetOk a
  | .copy a b l => offsetOk a && offsetOk b && lengthOk l
  | .zero a l => offsetOk a && lengthOk l
  | .reserved op _ => reservedOk op

end Sys2Proof
end

