-- ==== Sys2Proof/Decode.lean ====
section
/-! DEFINITION. The decoder (R100 steps 1 and 2, R101 to R107), total on every 32-bit word, and the encoder (R101).
R103 gives the opcodes; R104 gives the fields that must be zero. -/

namespace Sys2Proof

/-- Why a word is no command, named by the opcode of the row that refuses it. -/
inductive DecodeError where
  /-- A field that R104 marks must-be-zero for this opcode is not zero (R105). -/
  | mustBeZero (op : BitVec 4)
  deriving DecidableEq, Repr

/-- What a word decodes to (R105: exactly one of these). -/
inductive Decoded where
  | instr (i : Instr)
  | illegal (why : DecodeError)
  deriving DecidableEq, Repr

/-- OP, bits 31:28 (R101). -/
def fieldOp (w : Word) : BitVec 4 := w.extractLsb' 28 4

/-- A, bits 27:20, zero-extended (R101, R102). -/
def fieldA (w : Word) : Nat := (w.extractLsb' 20 8).toNat

/-- B, bits 19:12, zero-extended (R101, R102). -/
def fieldB (w : Word) : Nat := (w.extractLsb' 12 8).toNat

/-- RSV, bits 11:9 (R101). -/
def fieldRsv (w : Word) : Nat := (w.extractLsb' 9 3).toNat

/-- L, bits 8:0, zero-extended (R101, R102). -/
def fieldL (w : Word) : Nat := (w.extractLsb' 0 9).toNat

/-- Bits 27:0, everything below OP. -/
def fieldRest (w : Word) : BitVec 28 := w.extractLsb' 0 28

/-- R100 step 2: the command, if every field that must be zero is zero; else ILLEGAL. -/
def requireZero (w : Word) (zeroFields : List Nat) (i : Instr) : Decoded :=
  if zeroFields.all (· == 0) then .instr i else .illegal (.mustBeZero (fieldOp w))

/-- The decoder: the opcode picks the row (R103), and the row's must-be-zero fields are tested (R104). -/
def decode (w : Word) : Decoded :=
  match (fieldOp w).toNat with
  | 0x0 => requireZero w [fieldA w, fieldB w, fieldRsv w, fieldL w] .nop
  | 0x1 => requireZero w [fieldB w, fieldRsv w] (.csum (fieldA w) (fieldL w))
  | 0x2 => requireZero w [fieldB w, fieldRsv w] (.pcsum (fieldA w) (fieldL w))
  | 0x3 => requireZero w [fieldB w, fieldRsv w, fieldL w] (.patch (fieldA w))
  | 0x4 => requireZero w [fieldB w, fieldRsv w, fieldL w] (.serIp (fieldA w))
  | 0x5 => requireZero w [fieldB w, fieldRsv w, fieldL w] (.serUdp (fieldA w))
  | 0x6 => requireZero w [fieldB w, fieldRsv w, fieldL w] (.serPsh (fieldA w))
  | 0x7 => requireZero w [fieldB w, fieldRsv w, fieldL w] (.serNtp (fieldA w))
  | 0x8 => requireZero w [fieldB w, fieldRsv w, fieldL w] (.assemble (fieldA w))
  | 0x9 => requireZero w [fieldB w, fieldRsv w, fieldL w] (.decodeNtp (fieldA w))
  | 0xA => requireZero w [fieldRsv w] (.copy (fieldA w) (fieldB w) (fieldL w))
  | 0xB => requireZero w [fieldB w, fieldRsv w] (.zero (fieldA w) (fieldL w))
  | _ => .instr (.reserved (fieldOp w) (fieldRest w))

/-- R101: `w = OP << 28 | A << 20 | B << 12 | L`, the shifts being products (R13) and RSV zero. -/
def pack (op a b l : Nat) : Word :=
  BitVec.ofNat 32 (2 ^ 28 * op + 2 ^ 20 * a + 2 ^ 12 * b + l)

/-- The encoder (R101, R103; a field the command does not use is zero, R108). -/
def encode : Instr → Word
  | .nop => pack 0x0 0 0 0
  | .csum a l => pack 0x1 a 0 l
  | .pcsum a l => pack 0x2 a 0 l
  | .patch a => pack 0x3 a 0 0
  | .serIp a => pack 0x4 a 0 0
  | .serUdp a => pack 0x5 a 0 0
  | .serPsh a => pack 0x6 a 0 0
  | .serNtp a => pack 0x7 a 0 0
  | .assemble a => pack 0x8 a 0 0
  | .decodeNtp a => pack 0x9 a 0 0
  | .copy a b l => pack 0xA a b l
  | .zero a l => pack 0xB a 0 l
  | .reserved op rest => op ++ rest

/-- The command the decoder reads from a word given by its low `nbits` bits, the bits above being zero; none where it refuses.
A command is one 32-bit word captured from CMD as a value (R89, R107), so no byte order comes in. -/
def decodeTableWord (nbits w : Nat) : Option Instr :=
  match decode (BitVec.ofNat 32 (w % 2 ^ nbits)) with
  | .instr i => some i
  | .illegal _ => none

end Sys2Proof
end

