-- ==== Sys2Proof/Machine/Bytes.lean ====
section
/-! DEFINITION. Network byte order (R12, R70): BE16, BE32 and their inverses RD16, RD32 on byte sequences, and `zeros` (R11). -/

namespace Sys2Proof.Machine

/-- BE16(v) = [v[15:8], v[7:0]] (R12). -/
def be16 (v : Half) : List Byte := [v.extractLsb' 8 8, v.extractLsb' 0 8]

/-- BE32(v) = [v[31:24], v[23:16], v[15:8], v[7:0]] (R12). -/
def be32 (v : Word) : List Byte :=
  [v.extractLsb' 24 8, v.extractLsb' 16 8, v.extractLsb' 8 8, v.extractLsb' 0 8]

/-- `s[i]`, zero-based (R11). Every caller's sequence is longer than i; past the end it is 0 (log 19). -/
def byteAt (s : List Byte) (i : Nat) : Byte := s.getD i 0

/-- RD16(s, i) = s[i]·256 + s[i+1] (R12). -/
def rd16 (s : List Byte) (i : Nat) : Half := byteAt s i ++ byteAt s (i + 1)

/-- RD32(s, i) = s[i]·2^24 + s[i+1]·2^16 + s[i+2]·2^8 + s[i+3] (R12). -/
def rd32 (s : List Byte) (i : Nat) : Word :=
  byteAt s i ++ byteAt s (i + 1) ++ byteAt s (i + 2) ++ byteAt s (i + 3)

/-- zeros(n): n bytes of 0x00 (R11). -/
def zeros (n : Nat) : List Byte := List.replicate n 0

end Sys2Proof.Machine
end

