-- ==== Sys2Proof/Config.lean ====
section
/-! DEFINITION. What one implementation fixes (R7): the sizes the spec gives, and its four OPEN parameters as constants without a
body, so that a statement about the model holds for every value of them. -/

namespace Sys2Proof

/-- The byte order of the HOST's bus, the two values of HOST_BUS_ENDIAN (R7, R75). -/
inductive Endian where
  | big
  | little
  deriving DecidableEq, Repr, Inhabited

namespace Config

/-- BUF_SIZE (R7, R44). -/
def bufSize : Nat := 256

/-- The bytes of the block's bus window (R24). -/
def windowSize : Nat := 0x200

/-- The window offset of `BUF[0]` (R24). -/
def bufBase : Nat := 0x100

/-- BASE, the bus address of register offset 0x000: an OPEN parameter (R7, R83).
DESIGN CHOICE: a bus address is a natural number, since the spec gives the bus no width (log 5). Safe. -/
opaque base : Nat

/-- HOST_BUS_ENDIAN: an OPEN parameter (R7, R75; log 6). -/
opaque hostBusEndian : Endian

/-- SRC_PORT_RESET: an OPEN parameter (R7, R35; log 7). -/
opaque srcPortReset : Half

/-- IP_ID_RESET: an OPEN parameter (R7, R36; log 7). -/
opaque ipIdReset : Half

end Config

end Sys2Proof
end

