-- ==== Sys2Proof/Machine/State.lean ====
section
/-! DEFINITION. The state of the block (R25 to R50), all of it plain data, the reasons a step can stop (R236), and the state after
reset (R49). BUF is a list of (offset, byte) pairs with strictly rising offsets; a byte it does not list is undefined (R45). -/

namespace Sys2Proof.Machine

/-- BUF (R44): the defined bytes, offsets strictly rising and below 256 (`Memory.wf` in Ops.lean). -/
abbrev Memory := List Host.Cell

/-- The width of a HOST access: 1, 2 or 4 bytes (R73, R76: no wider access exists). -/
inductive Width where
  | byte
  | half
  | word
  deriving DecidableEq, Repr

/-- One HOST step: a read or a write at a bus address (R24, R73). A narrow write uses the low bits of its value (log 12). -/
inductive BusAccess where
  | read (width : Width) (addr : Nat)
  | write (width : Width) (addr : Nat) (value : Word)
  deriving DecidableEq, Repr

/-- Who moves (R23, R260): the ENGINE, the HOST with one bus access, or the reset input. -/
inductive Turn where
  | engine
  | host (access : BusAccess)
  | reset
  deriving DecidableEq, Repr

/-- The registers of the register space (R25); `reserved` stands for every offset from 0x048 to 0x0FC (R27). -/
inductive Reg where
  | cmd | status | result | acc | srcAddr | dstAddr | srcPort | ipId | udpCsum | ipCsum
  | ntpW0 | ntpUnpack | ntpW1 | ntpW2 | ntpW3 | ntpTxSecs | ntpTxFrac | unixSecs | reserved
  deriving DecidableEq, Repr

/-- The error codes a command can raise (R231); code 0, NONE, is success and raises nothing. -/
inductive ErrorCode where
  | illegal | range | unresolved | length
  deriving DecidableEq, Repr

/-- Why a step stops the model (R236). The hardware's behaviour is unspecified in each case, and each fault errs toward
unprovable: safe. -/
inductive Fault where
  /-- UNSUPPORTED_ACCESS: raised by a HOST access to the register space that is not 32-bit and 4-byte aligned (R26), and by a
  misaligned HOST access to the BUF window (R76). Safe. -/
  | unsupportedAccess
  /-- UNDEFINED_BYTE: raised by a HOST read (R77) or a command (R80) that reads a BUF byte nothing has written since reset (R45).
  Safe. -/
  | undefinedByte
  /-- HAZARD: raised by a HOST access that R262 forbids before a STATUS read has returned BUSY = 0. Safe. -/
  | hazard
  /-- Raised by a HOST access at a bus address outside the block's window, which the block does not decode (R24): the model's own
  fault (log 5). Safe. -/
  | outsideWindow
  deriving DecidableEq, Repr

/-- Why a command has no meaning. -/
inductive Refusal where
  /-- Kept for an arm of `exec` without a meaning; no arm raises it. Safe. -/
  | notModelled (mnemonic : String)
  deriving DecidableEq, Repr

/-- The state of the block, every field with the rule that names it. The last four fields are the model's own. -/
structure State where
  /-- LAST_CMD, read through CMD (R28). -/
  lastCmd : Word
  /-- PENDING (R46). STATUS.BUSY is 1 exactly when it holds a word (log 13). -/
  pending : Option Word
  /-- STATUS.ERR (R29). -/
  err : Bool
  /-- STATUS.Z (R29). -/
  z : Bool
  /-- STATUS.BORROW (R29). -/
  borrow : Bool
  /-- STATUS.ERRCODE (R29, R231). -/
  errcode : BitVec 4
  /-- STATUS.SRC_VALID (R29). -/
  srcValid : Bool
  /-- STATUS.DST_VALID (R29). -/
  dstValid : Bool
  /-- STATUS.DROP (R29). -/
  drop : Bool
  /-- RESULT bits 15:0; bits 31:16 read as zero (R31, log 14). -/
  result : Half
  /-- ACC (R32). -/
  acc : Word
  /-- SRC_ADDR (R33). -/
  srcAddr : Word
  /-- DST_ADDR (R34). -/
  dstAddr : Word
  /-- SRC_PORT bits 15:0; bits 31:16 read as zero (R35, log 14). -/
  srcPort : Half
  /-- IP_ID bits 15:0; bits 31:16 read as zero (R36, log 14). -/
  ipId : Half
  /-- UDP_CSUM bits 15:0; bits 31:16 read as zero (R37, log 14). -/
  udpCsum : Half
  /-- IP_CSUM bits 15:0; bits 31:16 read as zero (R38, log 14). -/
  ipCsum : Half
  /-- NTP_W0 (R39). -/
  ntpW0 : Word
  /-- NTP_UNPACK (R40). -/
  ntpUnpack : Word
  /-- NTP_W1 (R41). -/
  ntpW1 : Word
  /-- NTP_W2 (R41). -/
  ntpW2 : Word
  /-- NTP_W3 (R41). -/
  ntpW3 : Word
  /-- NTP_TX_SECS (R42). -/
  ntpTxSecs : Word
  /-- NTP_TX_FRAC (R42). -/
  ntpTxFrac : Word
  /-- UNIX_SECS (R43). -/
  unixSecs : Word
  /-- BUF (R44). -/
  buf : Memory
  /-- The model's own: the busy-hazard interval of R262 is open (log 9). -/
  window : Bool
  /-- The model's own: the value the last HOST read handed over (R109, log 8). -/
  busData : Option Word
  /-- The model's own: the BUSY bit the last STATUS read returned, none before one (R269, log 26). -/
  lastPoll : Option Bool
  /-- The model's own: the coming turns (log 1). -/
  agenda : List Turn
  deriving DecidableEq, Repr

/-- The state after reset (R49). The last four fields are DESIGN CHOICES for the model's own fields
(log 1, 8, 9, 26). -/
def State.reset : State where
  lastCmd := 0
  pending := none
  err := false
  z := false
  borrow := false
  errcode := 0
  srcValid := false
  dstValid := false
  drop := false
  result := 0
  acc := 0
  srcAddr := 0
  dstAddr := 0
  srcPort := Config.srcPortReset
  ipId := Config.ipIdReset
  udpCsum := 0
  ipCsum := 0
  ntpW0 := 0
  ntpUnpack := 0
  ntpW1 := 0
  ntpW2 := 0
  ntpW3 := 0
  ntpTxSecs := 0
  ntpTxFrac := 0
  unixSecs := 0
  buf := []
  window := false
  busData := none
  lastPoll := none
  agenda := []

end Sys2Proof.Machine
end

