-- ==== Sys2Proof/Machine/Ops.lean ====
section
/-! DEFINITION. The named operations over the state: reading and writing BUF (R14 MemRead, MemWrite), raising an error (R232) and
ending a command well (R100 step 6), accepting a command (R28) and ending its execution (R46), reset (R260). -/

namespace Sys2Proof.Machine

/-- What executing a command or a turn answers. -/
abbrev Result := Host.Outcome State Fault Refusal

/-- The canonical form of BUF: offsets strictly rising, all below BUF_SIZE (R44). An unlisted byte is undefined (R45), so no
value of a byte is left out. -/
abbrev Memory.wf (m : Memory) : Prop :=
  m.Pairwise (fun c d => c.1 < d.1) ∧ ∀ c ∈ m, c.1 < Config.bufSize

/-- `BUF[a]`, or none where the byte is undefined (R45): what an unlisted offset reads as is said here and nowhere else. -/
def Memory.read? : Memory → Nat → Option Byte
  | [], _ => none
  | (k, b) :: rest, a => if k = a then some b else Memory.read? rest a

/-- `BUF[a..a+n)` (R11), or none where one of its bytes is undefined (R45). -/
def Memory.readRange (m : Memory) (a : Nat) : Nat → Option (List Byte)
  | 0 => some []
  | n + 1 =>
    match m.read? a, m.readRange (a + 1) n with
    | some b, some bs => some (b :: bs)
    | _, _ => none

/-- BUF with byte a set, in canonical form. -/
def Memory.insert (a : Nat) (b : Byte) : Memory → Memory
  | [] => [(a, b)]
  | (k, c) :: rest =>
    if a < k then (a, b) :: (k, c) :: rest
    else if a = k then (a, b) :: rest
    else (k, c) :: Memory.insert a b rest

/-- BUF with the sequence written from offset a on (R14 MemWrite). -/
def Memory.writeRange (m : Memory) (a : Nat) : List Byte → Memory
  | [] => m
  | b :: bs => Memory.writeRange (Memory.insert a b m) (a + 1) bs

/-- MemWrite(a, len(bs), bs) (R14). -/
def State.writeBuf (s : State) (a : Nat) (bs : List Byte) : State :=
  { s with buf := s.buf.writeRange a bs }

/-- The code STATUS.ERRCODE holds for an error (R231). -/
def ErrorCode.code : ErrorCode → BitVec 4
  | .illegal => 1
  | .range => 2
  | .unresolved => 3
  | .length => 4

/-- `raise Error(code)` (R232): ERR and ERRCODE are written and nothing else. The block's one way of failing; it has no trap (R230). -/
def State.raise (s : State) (e : ErrorCode) : State :=
  { s with err := true, errcode := e.code }

/-- R100 step 6, after the command's rule: ERR and ERRCODE are cleared. -/
def State.succeed (s : State) : State :=
  { s with err := false, errcode := 0 }

/-- STATUS.BUSY (R29): a command is pending (R46, log 13). -/
def State.busy (s : State) : Bool := s.pending.isSome

/-- Acceptance of command word w (R28); the busy-hazard interval opens (R262). -/
def State.accept (s : State) (w : Word) : State :=
  { s with pending := some w, lastCmd := w, window := true }

/-- The end of a command's execution: STATUS.BUSY becomes 0 (R46). -/
def State.finish (s : State) : State :=
  { s with pending := none }

/-- The reset input (R260): every piece of the block's state takes its value of R49. The coming turns and what the
HOST has already read are not the block's and stay (log 1, 8, 26). -/
def State.applyReset (s : State) : State :=
  { State.reset with agenda := s.agenda, busData := s.busData, lastPoll := s.lastPoll }

end Sys2Proof.Machine
end

