-- ==== Sys2Proof/Machine/Flags.lean ====
section
/-! DEFINITION. The flags a command computes (R48) and the STATUS word the HOST reads (R29). -/

namespace Sys2Proof.Machine

/-- Z of a checksum (R145, R146): 1 when it is 0x0000. -/
def zFlag (checksum : Half) : Bool := decide (checksum = 0x0000)

/-- The NTP-to-Unix epoch offset 2,208,988,800 (R8 NTP_UNIX_OFFSET). -/
def ntpUnixOffset : Nat := 2208988800

/-- UNIX_SECS of an NTP seconds value: the difference mod 2^32 (R175). -/
def unixSeconds (secs : Word) : Word := secs - BitVec.ofNat 32 ntpUnixOffset

/-- BORROW of an NTP seconds value (R175): 1 when the epoch offset is larger. -/
def borrowFlag (secs : Word) : Bool := decide (secs.toNat < ntpUnixOffset)

/-- STATUS as one word (R29): bits 31:11 zero, then DROP, DST_VALID, SRC_VALID, ERRCODE, BORROW, Z, ERR, BUSY. -/
def statusWord (s : State) : Word :=
  0#21 ++ BitVec.ofBool s.drop ++ BitVec.ofBool s.dstValid ++ BitVec.ofBool s.srcValid ++ s.errcode
    ++ BitVec.ofBool s.borrow ++ BitVec.ofBool s.z ++ BitVec.ofBool s.err ++ BitVec.ofBool s.busy

end Sys2Proof.Machine
end

