-- ==== Sys2Proof/Machine/Operands.lean ====
section
/-! DEFINITION. The operand checks of R100, in the form every command uses them: does a range fit BUF (step 3), are the addresses
valid (step 4), and reading the bytes of a range. Each continues with the rest of the command only where its check passes. -/

namespace Sys2Proof.Machine

/-- R100 step 3: the range `[a, a+n)` fits BUF (R79), or the command raises RANGE. -/
def ifFits (s : State) (a n : Nat) (body : Result) : Result :=
  if a + n ≤ Config.bufSize then body else .next (s.raise .range)

/-- R100 step 4: both addresses have been written since reset, or the command raises UNRESOLVED (R231). -/
def ifResolved (s : State) (body : Result) : Result :=
  if s.srcValid && s.dstValid then body else .next (s.raise .unresolved)

/-- MemRead(a, n) (R14); an undefined byte among them faults (R80, R45). -/
def withBytes (s : State) (a n : Nat) (body : List Byte → Result) : Result :=
  match s.buf.readRange a n with
  | some bs => body bs
  | none => .fault .undefinedByte

end Sys2Proof.Machine
end

