-- ==== Sys2Proof/Machine/Bus.lean ====
section
/-! DEFINITION. The HOST's side: one bus access to the block's window (R24 to R43, R73 to R77), with the busy hazard (R262). -/

namespace Sys2Proof.Machine

/-- The bytes an access moves (R73). -/
def Width.bytes : Width → Nat
  | .byte => 1
  | .half => 2
  | .word => 4

/-- The bus address of an access. -/
def BusAccess.addr : BusAccess → Nat
  | .read _ addr => addr
  | .write _ addr _ => addr

/-- The window offset of a bus address, or none where the block does not decode it (R24, R83). -/
def windowOffset (addr : Nat) : Option Nat :=
  if Config.base ≤ addr ∧ addr < Config.base + Config.windowSize then some (addr - Config.base) else none

/-- The register at a 4-byte-aligned offset of the register space (R25). -/
def regAt (off : Nat) : Reg :=
  match off with
  | 0x000 => .cmd
  | 0x004 => .status
  | 0x008 => .result
  | 0x00C => .acc
  | 0x010 => .srcAddr
  | 0x014 => .dstAddr
  | 0x018 => .srcPort
  | 0x01C => .ipId
  | 0x020 => .udpCsum
  | 0x024 => .ipCsum
  | 0x028 => .ntpW0
  | 0x02C => .ntpUnpack
  | 0x030 => .ntpW1
  | 0x034 => .ntpW2
  | 0x038 => .ntpW3
  | 0x03C => .ntpTxSecs
  | 0x040 => .ntpTxFrac
  | 0x044 => .unixSecs
  | _ => .reserved

/-- The word a HOST read of a register returns (R27 to R43). -/
def readReg (r : Reg) (s : State) : Word :=
  match r with
  | .cmd => s.lastCmd
  | .status => statusWord s
  | .result => s.result.setWidth 32
  | .acc => s.acc
  | .srcAddr => s.srcAddr
  | .dstAddr => s.dstAddr
  | .srcPort => s.srcPort.setWidth 32
  | .ipId => s.ipId.setWidth 32
  | .udpCsum => s.udpCsum.setWidth 32
  | .ipCsum => s.ipCsum.setWidth 32
  | .ntpW0 => s.ntpW0
  | .ntpUnpack => s.ntpUnpack
  | .ntpW1 => s.ntpW1
  | .ntpW2 => s.ntpW2
  | .ntpW3 => s.ntpW3
  | .ntpTxSecs => s.ntpTxSecs
  | .ntpTxFrac => s.ntpTxFrac
  | .unixSecs => s.unixSecs
  | .reserved => 0

/-- A HOST write of CMD (R28): accepted, or dropped while BUSY = 1. -/
def writeCmd (w : Word) (s : State) : State :=
  if s.busy then { s with drop := true } else s.accept w

/-- A HOST write of STATUS (R30): bit 10 set clears DROP. -/
def writeStatus (w : Word) (s : State) : State :=
  if w.getLsbD 10 then { s with drop := false } else s

/-- A HOST write of a register (R27 to R43): read-only registers and reserved offsets ignore it. -/
def writeReg (r : Reg) (w : Word) (s : State) : State :=
  match r with
  | .cmd => writeCmd w s
  | .status => writeStatus w s
  | .srcAddr => { s with srcAddr := w, srcValid := true }
  | .dstAddr => { s with dstAddr := w, dstValid := true }
  | .srcPort => { s with srcPort := w.setWidth 16 }
  | .ipId => { s with ipId := w.setWidth 16 }
  | .result | .acc | .udpCsum | .ipCsum | .ntpW0 | .ntpUnpack | .ntpW1 | .ntpW2 | .ntpW3
  | .ntpTxSecs | .ntpTxFrac | .unixSecs | .reserved => s

/-- R262: the registers the HOST must not read in the busy-hazard interval. -/
def readHazard : Reg → Bool
  | .result | .acc | .udpCsum | .ipCsum | .ntpW0 | .ntpUnpack | .ntpW1 | .ntpW2 | .ntpW3
  | .ntpTxSecs | .ntpTxFrac | .unixSecs => true
  | .cmd | .status | .srcAddr | .dstAddr | .srcPort | .ipId | .reserved => false

/-- R262: the registers the HOST must not write in the busy-hazard interval. DEDUCED: a write that R27 ignores is not among the
accesses R262 forbids (log 11). -/
def writeHazard : Reg → Bool
  | .srcAddr | .dstAddr | .srcPort | .ipId => true
  | .cmd | .status | .result | .acc | .udpCsum | .ipCsum | .ntpW0 | .ntpUnpack | .ntpW1 | .ntpW2 | .ntpW3
  | .ntpTxSecs | .ntpTxFrac | .unixSecs | .reserved => false

/-- R262: a STATUS read that returns BUSY = 0 closes the busy-hazard interval. -/
def closesWindow (r : Reg) (s : State) : Bool := decide (r = .status) && !s.busy

/-- The BUSY bit the last STATUS read returned, after a read of register r (R269, log 26). -/
def lastPollAfter (r : Reg) (s : State) : Option Bool :=
  match r with
  | .status => some s.busy
  | .cmd | .result | .acc | .srcAddr | .dstAddr | .srcPort | .ipId | .udpCsum | .ipCsum
  | .ntpW0 | .ntpUnpack | .ntpW1 | .ntpW2 | .ntpW3 | .ntpTxSecs | .ntpTxFrac | .unixSecs | .reserved => s.lastPoll

/-- A HOST read of the register space (R26, R27, R82, R262). The value goes to busData (log 8). -/
def readRegSpace (width : Width) (off : Nat) (s : State) : Result :=
  if width = .word ∧ off % 4 = 0 then
    if s.window && readHazard (regAt off) then .fault .hazard
    else .next { s with
      busData := some (readReg (regAt off) s)
      window := s.window && !closesWindow (regAt off) s
      lastPoll := lastPollAfter (regAt off) s }
  else .fault .unsupportedAccess

/-- A HOST write of the register space (R26, R27, R262). -/
def writeRegSpace (width : Width) (off : Nat) (value : Word) (s : State) : Result :=
  if width = .word ∧ off % 4 = 0 then
    if s.window && writeHazard (regAt off) then .fault .hazard
    else .next (writeReg (regAt off) value s)
  else .fault .unsupportedAccess

/-- A byte sequence in the order the bus puts it: as it stands on a big-endian bus, reversed on a little-endian one (R75). -/
def busOrder (e : Endian) (bs : List Byte) : List Byte :=
  match e with
  | .big => bs
  | .little => bs.reverse

/-- The bytes a HOST write of a value puts into BUF (R75). A narrow write takes the low bits of the value (log 12). -/
def bytesOfValue (e : Endian) (width : Width) (value : Word) : List Byte :=
  match width with
  | .byte => [value.extractLsb' 0 8]
  | .half => busOrder e (be16 (value.setWidth 16))
  | .word => busOrder e (be32 value)

/-- The value a HOST read makes of the bytes of BUF (R75), zero-extended where the access is narrow (log 12). -/
def valueOfBytes (e : Endian) (width : Width) (bs : List Byte) : Word :=
  match width with
  | .byte => (byteAt bs 0).setWidth 32
  | .half => (rd16 (busOrder e bs) 0).setWidth 32
  | .word => rd32 (busOrder e bs) 0

/-- R75, R76: the BUF window takes naturally aligned accesses only. -/
def bufAligned (width : Width) (a : Nat) : Bool :=
  decide (a % width.bytes = 0 ∧ a + width.bytes ≤ Config.bufSize)

/-- A HOST read of BUF (R75 to R77, R262). -/
def readBufWindow (e : Endian) (width : Width) (a : Nat) (s : State) : Result :=
  if bufAligned width a then
    if s.window then .fault .hazard
    else withBytes s a width.bytes fun bs => .next { s with busData := some (valueOfBytes e width bs) }
  else .fault .unsupportedAccess

/-- A HOST write of BUF (R75, R76, R262). -/
def writeBufWindow (e : Endian) (width : Width) (a : Nat) (value : Word) (s : State) : Result :=
  if bufAligned width a then
    if s.window then .fault .hazard
    else .next (s.writeBuf a (bytesOfValue e width value))
  else .fault .unsupportedAccess

/-- One access at a window offset: the register space lies below 0x100, the BUF window from there on (R24). -/
def accessAt (e : Endian) (x : BusAccess) (off : Nat) (s : State) : Result :=
  match x with
  | .read width _ =>
    if off < Config.bufBase then readRegSpace width off s
    else readBufWindow e width (off - Config.bufBase) s
  | .write width _ value =>
    if off < Config.bufBase then writeRegSpace width off value s
    else writeBufWindow e width (off - Config.bufBase) value s

/-- One HOST step (R73). An access outside the window is none of the block's (R24) and stops the model (log 5). -/
def hostTurn (x : BusAccess) (s : State) : Result :=
  match windowOffset x.addr with
  | some off => accessAt Config.hostBusEndian x off s
  | none => .fault .outsideWindow

end Sys2Proof.Machine
end

