-- ==== Sys2Proof/Machine/Checksum.lean ====
section
/-! DEFINITION. The checksum function (R131 to R133) and the commands CSUM, PCSUM, PATCH (R145 to R147). The pseudo-header PCSUM
sums is here too (R166), with the constants it names. -/

namespace Sys2Proof.Machine

/-- A 16-bit word of the sum, `hi << 8 | lo`, widened to the accumulator (R131). -/
def pairWord (hi lo : Byte) : Word := (hi ++ lo).setWidth 32

/-- The loop of R131 from accumulator acc on: complete big-endian words, then one trailing byte as a high-order byte. -/
def csumAccFrom (acc : Word) : List Byte → Word
  | [] => acc
  | [b] => acc + pairWord b 0
  | hi :: lo :: rest => csumAccFrom (acc + pairWord hi lo) rest

/-- csum_acc(s), the 32-bit accumulator (R131). -/
def csumAcc (s : List Byte) : Word := csumAccFrom 0 s

/-- v[31:16] (R132). -/
def highHalf (v : Word) : Word := v >>> 16

/-- v[15:0] (R132). -/
def lowHalf (v : Word) : Word := v &&& 0xFFFF

/-- One turn of R132's loop body. -/
def foldStep (v : Word) : Word := highHalf v + lowHalf v

/-- R132's loop, cut after the given number of turns. -/
def foldLoop : Nat → Word → Word
  | 0, v => v
  | n + 1, v => if highHalf v = 0 then v else foldLoop n (foldStep v)

/-- fold(v) (R132). The loop runs at most twice for every v (R132), so cutting it after two turns cuts nothing off (log 17). -/
def fold (v : Word) : Half := (foldLoop 2 v).setWidth 16

/-- checksum(s) (R133). -/
def checksum (s : List Byte) : Half := ~~~ fold (csumAcc s)

/-- The UDP protocol number (R8 IP_PROTO_UDP). -/
def ipProtoUdp : Byte := 17

/-- The UDP pseudo-header with length field n, 12 bytes (R166). -/
def pseudoHeader (s : State) (n : Half) : List Byte :=
  be32 s.srcAddr ++ be32 s.dstAddr ++ [0x00, ipProtoUdp] ++ be16 n

/-- What a successful CSUM or PCSUM over the byte sequence bs writes: ACC, RESULT and Z (R145, R146, R48). -/
def State.setChecksum (s : State) (bs : List Byte) : State :=
  { s with acc := csumAcc bs, result := checksum bs, z := zFlag (checksum bs) }

/-- CSUM (R145). -/
def execCsum (a l : Nat) (s : State) : Result :=
  ifFits s a l <| withBytes s a l fun bs => .next (s.setChecksum bs).succeed

/-- PCSUM (R146). The length field of the UDP header is read before the rest of the segment (log 20). -/
def execPcsum (a l : Nat) (s : State) : Result :=
  ifFits s a l <| ifResolved s <|
    if l < 8 then .next (s.raise .length)
    else withBytes s (a + 4) 2 fun field =>
      if (rd16 field 0).toNat = l then
        withBytes s a l fun segment =>
          .next (s.setChecksum (pseudoHeader s (BitVec.ofNat 16 l) ++ segment)).succeed
      else .next (s.raise .length)

/-- PATCH (R147). -/
def execPatch (a : Nat) (s : State) : Result :=
  ifFits s a 2 <| .next (s.writeBuf a (be16 s.result)).succeed

end Sys2Proof.Machine
end

