-- ==== Sys2Proof/Machine/Codec.lean ====
section
/-! DEFINITION. The wire layouts (R162 to R168) and the commands SER_IP, SER_UDP, SER_PSH, SER_NTP, DECODE_NTP (R170 to R175). -/

namespace Sys2Proof.Machine

/-- IP_HDR_LEN (R8). -/
def ipHdrLen : Nat := 20
/-- UDP_HDR_LEN (R8). -/
def udpHdrLen : Nat := 8
/-- PSH_LEN (R8). -/
def pshLen : Nat := 12
/-- NTP_LEN (R8). -/
def ntpLen : Nat := 48
/-- UDP_LEN = UDP_HDR_LEN + NTP_LEN (R8, R165). -/
def udpLen : Nat := udpHdrLen + ntpLen
/-- IP_TOTAL_LEN = IP_HDR_LEN + UDP_LEN (R8, R165). -/
def ipTotalLen : Nat := ipHdrLen + udpLen
/-- UDP_DST_PORT (R8). -/
def udpDstPort : Half := 123
/-- IP_TTL (R8). -/
def ipTtl : Byte := 255
/-- IP_TOS (R8). -/
def ipTos : Byte := 0
/-- IP_FLAGS_FRAG (R8, conflict C3). -/
def ipFlagsFrag : Half := 0

/-- Byte 0 of the IP header, `(IP_VERSION << 4) | IP_IHL` with IP_VERSION 4 and IP_IHL = IP_HDR_LEN / 4 (R163). -/
def ipVersionIhl : Byte := (4 <<< 4) ||| BitVec.ofNat 8 (ipHdrLen / 4)

/-- ip_header(c), 20 bytes (R162, R170). -/
def ipHeader (s : State) (c : Half) : List Byte :=
  [ipVersionIhl, ipTos] ++ be16 (BitVec.ofNat 16 ipTotalLen) ++ be16 s.ipId ++ be16 ipFlagsFrag
    ++ [ipTtl, ipProtoUdp] ++ be16 c ++ be32 s.srcAddr ++ be32 s.dstAddr

/-- udp_header(c), 8 bytes (R164, R171). -/
def udpHeader (s : State) (c : Half) : List Byte :=
  be16 s.srcPort ++ be16 udpDstPort ++ be16 (BitVec.ofNat 16 udpLen) ++ be16 c

/-- The NTP status byte packed by shift and mask (R168). -/
def ntpStatusPack (li vn mode : Byte) : Byte := (li <<< 6) ||| (vn <<< 3) ||| mode

/-- ntp_request, 48 bytes: the status byte with NTP_LI 0, NTP_VN 3, NTP_MODE_CLIENT 3, and 47 zero bytes (R167, R168, R173). -/
def ntpRequest : List Byte := ntpStatusPack 0 3 3 :: zeros 47

/-- LI = status[7:6] (R168). -/
def ntpLeap (status : Byte) : BitVec 2 := status.extractLsb' 6 2
/-- VN = status[5:3] (R168). -/
def ntpVersion (status : Byte) : BitVec 3 := status.extractLsb' 3 3
/-- MODE = status[2:0] (R168). -/
def ntpMode (status : Byte) : BitVec 3 := status.extractLsb' 0 3

/-- NTP_UNPACK of a status byte: LI in bits 17:16, VN in bits 10:8, MODE in bits 2:0 (R40, R174). -/
def ntpUnpackWord (status : Byte) : Word :=
  ((ntpLeap status).setWidth 32 <<< 16) ||| ((ntpVersion status).setWidth 32 <<< 8)
    ||| (ntpMode status).setWidth 32

/-- SER_IP (R170). -/
def execSerIp (a : Nat) (s : State) : Result :=
  ifFits s a ipHdrLen <| ifResolved s <| .next (s.writeBuf a (ipHeader s 0x0000)).succeed

/-- SER_UDP (R171). -/
def execSerUdp (a : Nat) (s : State) : Result :=
  ifFits s a udpHdrLen <| .next (s.writeBuf a (udpHeader s 0x0000)).succeed

/-- SER_PSH (R172). -/
def execSerPsh (a : Nat) (s : State) : Result :=
  ifFits s a pshLen <| ifResolved s <| .next (s.writeBuf a (pseudoHeader s (BitVec.ofNat 16 udpLen))).succeed

/-- SER_NTP (R173). -/
def execSerNtp (a : Nat) (s : State) : Result :=
  ifFits s a ntpLen <| .next (s.writeBuf a ntpRequest).succeed

/-- What a successful DECODE_NTP writes, from the message's bytes 0..15 (h) and its transmit timestamp (t) (R174). -/
def State.setNtp (s : State) (h t : List Byte) : State :=
  { s with
    ntpW0 := rd32 h 0
    ntpUnpack := ntpUnpackWord (byteAt h 0)
    ntpW1 := rd32 h 4
    ntpW2 := rd32 h 8
    ntpW3 := rd32 h 12
    ntpTxSecs := rd32 t 0
    ntpTxFrac := rd32 t 4
    unixSecs := unixSeconds (rd32 t 0)
    borrow := borrowFlag (rd32 t 0) }

/-- DECODE_NTP (R174). Bytes 16 to 39 of the message are not read, and nothing is validated (R176). -/
def execDecodeNtp (a : Nat) (s : State) : Result :=
  ifFits s a ntpLen <| withBytes s a 16 fun h => withBytes s (a + 40) 8 fun t => .next (s.setNtp h t).succeed

end Sys2Proof.Machine
end

