-- ==== Sys2Proof/Machine/Assembler.lean ====
section
/-! DEFINITION. The commands ASSEMBLE, COPY, ZERO, NOP (R201 to R209) and the reserved opcodes (R105). -/

namespace Sys2Proof.Machine

/-- The UDP checksum of the datagram: over pseudo-header, UDP header with a zero checksum field, and request (R201 steps 1 to 4). -/
def frameUdpCsum (s : State) : Half :=
  checksum (pseudoHeader s (BitVec.ofNat 16 udpLen) ++ udpHeader s 0x0000 ++ ntpRequest)

/-- The datagram with IP checksum field c and the UDP checksum patched, 76 bytes (R201 steps 5 to 7). -/
def frame (s : State) (c : Half) : List Byte :=
  ipHeader s c ++ udpHeader s (frameUdpCsum s) ++ ntpRequest

/-- The IP checksum of the datagram: over all 76 bytes with a zero IP checksum field (R201 step 6, R203). -/
def frameIpCsum (s : State) : Half := checksum (frame s 0x0000)

/-- What a successful ASSEMBLE writes beside the frame: UDP_CSUM, IP_CSUM and RESULT, and ACC (R201). -/
def State.setSums (s : State) (ucs ics : Half) (acc : Word) : State :=
  { s with
    udpCsum := ucs
    ipCsum := ics
    result := ics
    acc := acc }

/-- ASSEMBLE (R201). Its concatenations are scratch and no state (R47). -/
def execAssemble (a : Nat) (s : State) : Result :=
  ifFits s a ipTotalLen <| ifResolved s <|
    .next ((s.setSums (frameUdpCsum s) (frameIpCsum s) (csumAcc (frame s 0x0000))).writeBuf a
      (frame s (frameIpCsum s))).succeed

/-- COPY (R207): the destination range is checked first, and every source byte is read before any is written. -/
def execCopy (a b l : Nat) (s : State) : Result :=
  ifFits s a l <| ifFits s b l <| withBytes s b l fun bs => .next (s.writeBuf a bs).succeed

/-- ZERO (R208). -/
def execZero (a l : Nat) (s : State) : Result :=
  ifFits s a l <| .next (s.writeBuf a (zeros l)).succeed

/-- NOP (R209): nothing beyond step 6 of R100. -/
def execNop (s : State) : Result := .next s.succeed

/-- A reserved opcode (R105): ILLEGAL, whatever the other bits. -/
def execReserved (_op : BitVec 4) (_rest : BitVec 28) (s : State) : Result := .next (s.raise .illegal)

end Sys2Proof.Machine
end

