-- ==== Sys2Proof/Machine/Dispatch.lean ====
section
/-! DEFINITION. Execution of a decoded command (R100 steps 3 to 6): one arm per constructor of Instr. -/

namespace Sys2Proof.Machine

def exec (i : Instr) (s : State) : Host.Outcome State Fault Refusal :=
  match i with
  | .nop => Sys2Proof.Machine.execNop s
  | .csum a l => Sys2Proof.Machine.execCsum a l s
  | .pcsum a l => Sys2Proof.Machine.execPcsum a l s
  | .patch a => Sys2Proof.Machine.execPatch a s
  | .serIp a => Sys2Proof.Machine.execSerIp a s
  | .serUdp a => Sys2Proof.Machine.execSerUdp a s
  | .serPsh a => Sys2Proof.Machine.execSerPsh a s
  | .serNtp a => Sys2Proof.Machine.execSerNtp a s
  | .assemble a => Sys2Proof.Machine.execAssemble a s
  | .decodeNtp a => Sys2Proof.Machine.execDecodeNtp a s
  | .copy a b l => Sys2Proof.Machine.execCopy a b l s
  | .zero a l => Sys2Proof.Machine.execZero a l s
  | .reserved op rest => Sys2Proof.Machine.execReserved op rest s

end Sys2Proof.Machine
end

