-- ==== Sys2Proof/Machine/Engine.lean ====
section
/-! DEFINITION. The ENGINE's step (R46, R100), and the turn the machine takes next: ENGINE, HOST or reset (R23, R260). -/

namespace Sys2Proof.Machine

/-- Execution of command word w (R100): an undecodable word raises ILLEGAL (R105). -/
def executeWord (w : Word) (s : State) : Result :=
  match decode w with
  | .instr i => exec i s
  | .illegal _ => .next (s.raise .illegal)

/-- STATUS.BUSY <- 0 after the execution (R46); a stopped model stays stopped (R236). -/
def finishing (r : Result) : Result :=
  match r with
  | .next t => .next t.finish
  | .fault f => .fault f
  | .refused f => .refused f

/-- The ENGINE's step (R46). It has one exactly when BUSY = 1; with BUSY = 0 its turn passes and nothing changes (log 3). -/
def engineTurn (s : State) : Result :=
  match s.pending with
  | some w => finishing (executeWord w s)
  | none => .next s

/-- One turn of the machine: the first of the coming turns, or the ENGINE's once none is left (log 1, 2; R267). -/
def takeTurn (s : State) : Result :=
  match s.agenda with
  | [] => engineTurn s
  | .engine :: rest => engineTurn { s with agenda := rest }
  | .host x :: rest => hostTurn x { s with agenda := rest }
  | .reset :: rest => .next (State.applyReset { s with agenda := rest })

/-- The state in which word w has been accepted as a command (R28) and the ENGINE has the next turn (log 16). -/
def withCommand (s : State) (w : Word) : State :=
  { s.accept w with agenda := .engine :: s.agenda }

end Sys2Proof.Machine
end

