-- ==== Sys2Proof/Machine/Step.lean ====
section
/-! DEFINITION. The step of the machine, and the placing of a command where the next step runs it. -/

namespace Sys2Proof.Machine

/-- One step: one turn of the ENGINE, the HOST or the reset input (R23, R46, R73, R260). -/
def step (s : State) : Host.Outcome State Fault Refusal := takeTurn s

/-- s with the word of the low nbits bits of w accepted as the pending command and the ENGINE to move next. The block fetches
no instruction (R22, R89): this stands for the HOST's CMD write of the word (log 16). -/
def State.withFetchWord (s : State) (nbits w : Nat) : State :=
  withCommand s (BitVec.ofNat 32 (w % 2 ^ nbits))

end Sys2Proof.Machine
end

