-- ==== Sys2Proof/Machine/Run.lean ====
section
/-! DEFINITION. The end of a HOST program's run and what is observed of it (R269), with a fault recorded or not (R236). -/

namespace Sys2Proof.Machine

/-- The turn is a step of the HOST program (R73). -/
def isHostTurn : Turn → Bool
  | .host _ => true
  | .engine | .reset => false

/-- The HOST program has executed its last step: no HOST access is to come. -/
def State.hostDone (s : State) : Bool := s.agenda.all fun turn => !isHostTurn turn

/-- The run has ended (R269): the HOST program has executed its last step, and the last STATUS read returned BUSY = 0 (log 26). -/
def State.runEnded (s : State) : Bool := s.hostDone && (s.lastPoll == some false)

/-- The registers of R25, in the order of their offsets. -/
def mapRegisters : List Reg :=
  [.cmd, .status, .result, .acc, .srcAddr, .dstAddr, .srcPort, .ipId, .udpCsum, .ipCsum, .ntpW0, .ntpUnpack, .ntpW1,
    .ntpW2, .ntpW3, .ntpTxSecs, .ntpTxFrac, .unixSecs]

/-- The observation of a run (R269): the block's registers and BUF, with a fault recorded or not. -/
structure Observation where
  /-- The registers of `mapRegisters`, each with the word it reads as. -/
  registers : List (Reg × Word)
  /-- BUF (R44). -/
  buf : Memory
  /-- The fault that stopped the run, if one did (R236). -/
  fault : Option Fault
  deriving DecidableEq, Repr

/-- The observation of the block in state s. -/
def observe (s : State) (fault : Option Fault) : Observation where
  registers := mapRegisters.map fun r => (r, readReg r s)
  buf := s.buf
  fault := fault

/-- How a run stands after some steps. -/
inductive RunOutcome where
  /-- It has ended, with no fault (R269). -/
  | ended (seen : Observation)
  /-- A fault of the model stopped it and is recorded; such a state is never a final one (R236). -/
  | stopped (seen : Observation)
  /-- It goes on from this state. -/
  | running (s : State)
  /-- It met a command without a meaning; no arm of `exec` is one. -/
  | refused (why : Refusal)
  deriving DecidableEq, Repr

/-- The run from s, followed for at most the given number of steps. A fault is recorded with the registers and BUF of the state in
which the faulting step was to be taken: that step wrote nothing (log 22). -/
def runProgram : Nat → State → RunOutcome
  | 0, s => if s.runEnded then .ended (observe s none) else .running s
  | n + 1, s =>
    if s.runEnded then .ended (observe s none)
    else
      match step s with
      | .next t => runProgram n t
      | .fault r => .stopped (observe s (some r))
      | .refused why => .refused why

end Sys2Proof.Machine
end

