-- ==== Sys2Proof/Safety.lean ====
section
/-! DEFINITION. The words the claims use: what BUF holds, what a command names (R100 steps 3 and 4) and may store, the invariant
of the machine, a run that does not stop, and the end of a run (R269). -/

namespace Sys2Proof

open Sys2Proof.Machine

/-- The next state an outcome holds, if it is one. -/
def nextState? {σ φ ρ : Type} : Host.Outcome σ φ ρ → Option σ
  | .next s => some s
  | .fault _ => none
  | .refused _ => none

/-- The fault an outcome holds, if it is one. -/
def faultOf? {σ φ ρ : Type} : Host.Outcome σ φ ρ → Option φ
  | .next _ => none
  | .fault r => some r
  | .refused _ => none

/-- `BUF[a..a+len(bs))` is defined and equals bs (R11, R45). -/
abbrev HoldsAt (m : Memory) (a : Nat) (bs : List Byte) : Prop :=
  ∀ i, i < bs.length → m.read? (a + i) = bs[i]?

/-- Some byte of `BUF[a..a+n)` is undefined (R45). -/
abbrev HasUndefined (m : Memory) (a n : Nat) : Prop :=
  ∃ i, i < n ∧ m.read? (a + i) = none

/-- Every byte outside `[a, a+n)` reads the same in both. -/
def SameOutside (m m' : Memory) (a n : Nat) : Prop :=
  ∀ k, (k < a ∨ a + n ≤ k) → m'.read? k = m.read? k

/-- The n bytes of a number in network order, the most significant first (R12, R70): BE16 for n = 2 and BE32 for n = 4, of a
number of 8·n bits. -/
def netBytes (n v : Nat) : List Byte :=
  (List.range n).map fun i => BitVec.ofNat 8 (v / 256 ^ (n - 1 - i))

/-- The number a byte sequence stands for in network order (R12): RD16 and RD32. -/
def netVal (bs : List Byte) : Nat := bs.foldl (fun v b => 256 * v + b.toNat) 0

/-- The IPv4 header of R162 with checksum field c, written out. -/
def wireIp (s : State) (c : Half) : List Byte :=
  [0x45, 0x00, 0x00, 0x4C] ++ netBytes 2 s.ipId.toNat ++ [0x00, 0x00, 0xFF, 0x11] ++ netBytes 2 c.toNat
    ++ netBytes 4 s.srcAddr.toNat ++ netBytes 4 s.dstAddr.toNat

/-- The UDP header of R164 with checksum field c, written out. -/
def wireUdp (s : State) (c : Half) : List Byte :=
  netBytes 2 s.srcPort.toNat ++ [0x00, 0x7B, 0x00, 0x38] ++ netBytes 2 c.toNat

/-- The pseudo-header of R166 with length field n, written out. -/
def wirePseudo (s : State) (n : Nat) : List Byte :=
  netBytes 4 s.srcAddr.toNat ++ netBytes 4 s.dstAddr.toNat ++ [0x00, 0x11] ++ netBytes 2 n

/-- The NTP client request of R167, written out. -/
def wireNtp : List Byte := 0x1B :: List.replicate 47 0x00

/-- The bits of a word with opcode op that must be zero (R104); a reserved opcode has none (R105). -/
def mustBeZeroMask : Nat → Word
  | 0x0 => 0x0FFFFFFF
  | 0x1 | 0x2 | 0xB => 0x000FFE00
  | 0x3 | 0x4 | 0x5 | 0x6 | 0x7 | 0x8 | 0x9 => 0x000FFFFF
  | 0xA => 0x00000E00
  | _ => 0x00000000

/-- A row of R104's table: a word whose OP is op decodes to the row's command, with A, B, L its bits 27:20, 19:12, 8:0 as
unsigned numbers (R102), when it passes the row's mask and match, and to ILLEGAL when it does not. -/
def RowDecodes (op : Nat) (mask pattern : Word) (command : Nat → Nat → Nat → Instr) : Prop :=
  ∀ w : Word, w.toNat / 2 ^ 28 = op →
    (w &&& mask = pattern →
      decode w = .instr (command (w.toNat / 2 ^ 20 % 2 ^ 8) (w.toNat / 2 ^ 12 % 2 ^ 8) (w.toNat % 2 ^ 9))) ∧
    (w &&& mask ≠ pattern → ∃ why, decode w = .illegal why)

/-- Commands executed one after the other, each ENGINE step completing before the next (R22, R263). -/
def execAll : List Instr → State → Result
  | [], s => .next s
  | i :: rest, s =>
    match exec i s with
    | .next t => execAll rest t
    | .fault r => .fault r
    | .refused r => .refused r

/-- The BUF ranges a command names, as (offset, length), in the order its rule lists them (R100 step 3). -/
def Instr.ranges : Instr → List (Nat × Nat)
  | .nop => []
  | .csum a l => [(a, l)]
  | .pcsum a l => [(a, l)]
  | .patch a => [(a, 2)]
  | .serIp a => [(a, 20)]
  | .serUdp a => [(a, 8)]
  | .serPsh a => [(a, 12)]
  | .serNtp a => [(a, 48)]
  | .assemble a => [(a, 76)]
  | .decodeNtp a => [(a, 48)]
  | .copy a b l => [(a, l), (b, l)]
  | .zero a l => [(a, l)]
  | .reserved _ _ => []

/-- The range of BUF a command stores to, as (offset, length); a command that stores nothing has length 0 here. -/
def Instr.stored : Instr → Nat × Nat
  | .nop => (0, 0)
  | .csum _ _ => (0, 0)
  | .pcsum _ _ => (0, 0)
  | .patch a => (a, 2)
  | .serIp a => (a, 20)
  | .serUdp a => (a, 8)
  | .serPsh a => (a, 12)
  | .serNtp a => (a, 48)
  | .assemble a => (a, 76)
  | .decodeNtp _ => (0, 0)
  | .copy a _ l => (a, l)
  | .zero a l => (a, l)
  | .reserved _ _ => (0, 0)

/-- The commands that need the addresses: SER_IP, SER_PSH, PCSUM, ASSEMBLE (R100 step 4). -/
def Instr.needsAddresses : Instr → Bool
  | .pcsum _ _ | .serIp _ | .serPsh _ | .assemble _ => true
  | .nop | .csum _ _ | .patch _ | .serUdp _ | .serNtp _ | .decodeNtp _ | .copy _ _ _ | .zero _ _
  | .reserved _ _ => false

/-- A word with a reserved opcode (R105). -/
def Instr.isReserved : Instr → Bool
  | .reserved _ _ => true
  | .nop | .csum _ _ | .pcsum _ _ | .patch _ | .serIp _ | .serUdp _ | .serPsh _ | .serNtp _ | .assemble _
  | .decodeNtp _ | .copy _ _ _ | .zero _ _ => false

/-- The invariant of the machine, in every state a run can reach. -/
structure Machine.State.Inv (s : State) : Prop where
  /-- BUF is in canonical form (R44). -/
  bufWf : s.buf.wf
  /-- ERR and ERRCODE agree (R232, R100 step 6). -/
  errIff : s.err = true ↔ s.errcode ≠ 0
  /-- Codes 5 to 15 are never produced (R231). -/
  errcodeLe : s.errcode.toNat ≤ 4
  /-- LAST_CMD holds the pending word (R46). -/
  pendingIsLast : ∀ w, s.pending = some w → s.lastCmd = w
  /-- While BUSY = 1 the busy-hazard interval is open (R262). -/
  busyInWindow : s.busy = true → s.window = true
  /-- SRC_ADDR not written since reset holds its reset value (R33, R49). -/
  srcInvalid : s.srcValid = false → s.srcAddr = 0
  /-- DST_ADDR not written since reset holds its reset value (R34, R49). -/
  dstInvalid : s.dstValid = false → s.dstAddr = 0
  /-- NTP_UNPACK is the status byte of NTP_W0 unpacked (R39, R40). -/
  unpackAgrees : s.ntpUnpack.toNat =
    2 ^ 16 * (s.ntpW0.toNat / 2 ^ 30) + 2 ^ 8 * (s.ntpW0.toNat / 2 ^ 27 % 8) + s.ntpW0.toNat / 2 ^ 24 % 8
  /-- UNIX_SECS and BORROW are those of NTP_TX_SECS, or no message has been decoded since reset (R43, R175, R49). -/
  unixAgrees : (s.unixSecs = s.ntpTxSecs - 0x83AA7E80#32 ∧ (s.borrow = true ↔ s.ntpTxSecs.toNat < 2208988800)) ∨
    (s.unixSecs = 0 ∧ s.ntpTxSecs = 0 ∧ s.borrow = false)

/-- k steps from s end in t, none of them a fault or a refusal (R236: a faulted state is never a final state). -/
def RunsTo (k : Nat) (s t : State) : Prop := core.run k s = .next t

/-- R269's two conditions for the end of a run: no HOST access is to come, and the last STATUS read returned BUSY = 0 (log 26). -/
def HasEnded (s : State) : Prop := (∀ x, .host x ∉ s.agenda) ∧ s.lastPoll = some false

end Sys2Proof
end

