-- ==== Sys2Proof/Certificates/Slice0/Obligations.lean ====
section
/-! DEFINITION. The statements about the block, one per numbered rule or group of rules of spec/. -/

open Sys2Proof Sys2Proof.Machine

/-! ### Encoding -/

/-- R101, R103, R104: every well-formed command is read back from its encoding, with every operand. -/
def Obligations.DecodeOfEncode : Prop :=
  ∀ i : Instr, i.wf = true → decode (encode i) = .instr i

/-- R101, R105: a word that decodes to a command is that command's encoding, and the command is well-formed. -/
def Obligations.EncodeOfDecode : Prop :=
  ∀ (w : Word) (i : Instr), decode w = .instr i → i.wf = true ∧ encode i = w

/-- R101: `w = OP << 28 | A << 20 | B << 12 | L`. -/
def Obligations.PackIsShiftedFields : Prop :=
  ∀ op a b l : Nat, op < 16 → a < 256 → b < 256 → l < 512 →
    pack op a b l =
      (BitVec.ofNat 32 op <<< 28) ||| (BitVec.ofNat 32 a <<< 20) ||| (BitVec.ofNat 32 b <<< 12) ||| BitVec.ofNat 32 l

/-- 95_test_vectors L2.8: words written out from R101 and R104 decode to the command they stand for. L2.8 has 0xD1234567 as ILLEGAL
(R105): the constructor that the last clause names is the model's, for the table's row (reserved), and raises ILLEGAL (log 15). -/
def Obligations.SpecWordsDecode : Prop :=
  decode 0x00000000 = .instr .nop ∧ decode 0x1000004C = .instr (.csum 0x00 76) ∧
  decode 0x21400038 = .instr (.pcsum 0x14 56) ∧ decode 0x30A00000 = .instr (.patch 0x0A) ∧
  decode 0x55C00000 = .instr (.serUdp 0x5C) ∧ decode 0x80000000 = .instr (.assemble 0x00) ∧
  decode 0x9A000000 = .instr (.decodeNtp 0xA0) ∧ decode 0xA145C038 = .instr (.copy 0x14 0x5C 56) ∧
  decode 0xB1A00002 = .instr (.zero 0x1A 2) ∧ decode 0xD1234567 = .instr (.reserved 0xD 0x1234567)

/-- R105: a word with a reserved opcode or a nonzero must-be-zero field raises ILLEGAL and changes nothing else; every other word
decodes to one of the twelve commands. -/
def Obligations.UnassignedWordsRaiseIllegal : Prop :=
  ∀ w : Word,
    (12 ≤ w.toNat / 2 ^ 28 ∨ w &&& mustBeZeroMask (w.toNat / 2 ^ 28) ≠ 0 →
      ∀ s : State, executeWord w s = .next { s with err := true, errcode := 1 }) ∧
    (w.toNat / 2 ^ 28 < 12 → w &&& mustBeZeroMask (w.toNat / 2 ^ 28) = 0 →
      ∃ i : Instr, i.isReserved = false ∧ decode w = .instr i)

/-! ### The ENGINE's step -/

/-- R46, R100: where the ENGINE moves next (its turn comes first, or no turn is left: log 1, 2) and a command is pending, step is
exec of the decoded command followed by BUSY <- 0; an undecodable word raises ILLEGAL; with BUSY = 0 nothing changes (log 3). -/
def Obligations.EngineStepRunsCommand : Prop :=
  ∀ (s : State) (rest : List Turn), (s.agenda = [] ∧ rest = []) ∨ s.agenda = .engine :: rest →
    (∀ w i, s.pending = some w → decode w = .instr i →
      step s = match exec i { s with agenda := rest } with
        | .next t => .next { t with pending := none }
        | .fault r => .fault r
        | .refused r => .refused r) ∧
    (∀ w why, s.pending = some w → decode w = .illegal why →
      step s = .next { s with agenda := rest, err := true, errcode := 1, pending := none }) ∧
    (s.pending = none → step s = .next { s with agenda := rest })

/-! ### Byte order and the checksum function -/

/-- R12: BE16 and BE32 give the bytes most significant first, and RD16 and RD32 are their inverses. -/
def Obligations.NetworkOrderBytes : Prop :=
  (∀ v : Half, be16 v = netBytes 2 v.toNat ∧ rd16 (be16 v) 0 = v) ∧
  (∀ v : Word, be32 v = netBytes 4 v.toNat ∧ rd32 (be32 v) 0 = v) ∧
  (∀ (s : List Byte) (i : Nat), i + 2 ≤ s.length → (rd16 s i).toNat = netVal ((s.drop i).take 2)) ∧
  (∀ (s : List Byte) (i : Nat), i + 4 ≤ s.length → (rd32 s i).toNat = netVal ((s.drop i).take 4))

/-- R131: the accumulator is the sum mod 2^32 of the big-endian words at even positions, an odd trailing byte being a high-order
byte. -/
def Obligations.AccIsWordSum : Prop :=
  ∀ s : List Byte,
    (csumAcc s).toNat =
      ((List.range ((s.length + 1) / 2)).map
        fun k => 256 * (s.getD (2 * k) 0).toNat + (s.getD (2 * k + 1) 0).toNat).sum % 2 ^ 32

/-- R132: the folding loop has ended after at most two turns, for every 32-bit value, and more turns change nothing. -/
def Obligations.FoldEndsInTwoTurns : Prop :=
  ∀ (v : Word) (n : Nat), 2 ≤ n →
    highHalf (foldLoop n v) = 0 ∧ foldLoop n v = foldLoop 2 v ∧ (fold v).toNat = (foldLoop n v).toNat

/-- R132, R133: the checksum is the complement of the folded accumulator. The first clause is no rule's words but follows from R132's
loop: fold of 0 is 0, and fold of any other value is its representative mod 65535 in 1 to 65535. -/
def Obligations.ChecksumIsOnesComplement : Prop :=
  (∀ v : Word, (fold v).toNat = if v.toNat = 0 then 0 else (v.toNat - 1) % 65535 + 1) ∧
  (∀ s : List Byte, (checksum s).toNat = 0xFFFF - (fold (csumAcc s)).toNat) ∧
  checksum [] = 0xFFFF

/-- R134: a checksum patched into its zeroed 2-byte field at an even position verifies. The sequence is at most 131,074 bytes long,
the bound up to which R136 loses no carry (log 18). -/
def Obligations.PatchedChecksumVerifies : Prop :=
  ∀ before after : List Byte, before.length % 2 = 0 → before.length + 2 + after.length ≤ 131074 →
    checksum (before ++ netBytes 2 (checksum (before ++ [0x00, 0x00] ++ after)).toNat ++ after) = 0x0000

/-- R136: no checksum input of the block loses a carry, and the accumulator stays at most 134 · 0xFFFF. -/
def Obligations.AccumulatorNeverWraps : Prop :=
  (∀ s : List Byte, s.length ≤ 268 → (csumAcc s).toNat ≤ 0x0085FF7A) ∧
  (∀ s : List Byte, s.length ≤ 131074 →
    (csumAcc s).toNat =
      ((List.range ((s.length + 1) / 2)).map
        fun k => 256 * (s.getD (2 * k) 0).toNat + (s.getD (2 * k + 1) 0).toNat).sum)

/-- R137: swapping the bytes of every pair of an even-length sequence swaps the bytes of the checksum (within the bound of R136:
log 18). -/
def Obligations.ByteSwapSymmetry : Prop :=
  ∀ ps : List (Byte × Byte), ps.length ≤ 65537 →
    checksum (ps.flatMap fun p => [p.2, p.1]) =
      (checksum (ps.flatMap fun p => [p.1, p.2])).extractLsb' 0 8
        ++ (checksum (ps.flatMap fun p => [p.1, p.2])).extractLsb' 8 8

/-! ### The commands -/

/-- R209. -/
def Obligations.NopClearsErrorOnly : Prop :=
  RowDecodes 0x0 0xFFFFFFFF 0x00000000 (fun _ _ _ => .nop) ∧
  ∀ s : State, exec .nop s = .next { s with err := false, errcode := 0 }

/-- R145. -/
def Obligations.CsumWritesChecksumOfRange : Prop :=
  RowDecodes 0x1 0xF00FFE00 0x10000000 (fun a _ l => .csum a l) ∧
  ∀ (a l : Nat) (s : State),
    (256 < a + l → exec (.csum a l) s = .next { s with err := true, errcode := 2 }) ∧
    (a + l ≤ 256 → HasUndefined s.buf a l → exec (.csum a l) s = .fault .undefinedByte) ∧
    (∀ bs : List Byte, a + l ≤ 256 → bs.length = l → HoldsAt s.buf a bs →
      exec (.csum a l) s = .next { s with
        acc := csumAcc bs, result := checksum bs, z := decide (checksum bs = 0x0000), err := false, errcode := 0 })

/-- R146. That a length field other than L raises LENGTH even where the rest of the segment has an undefined byte (the fourth clause)
is the model's inference from the order of R146's pseudocode (log 20). -/
def Obligations.PcsumWritesPseudoHeaderChecksum : Prop :=
  RowDecodes 0x2 0xF00FFE00 0x20000000 (fun a _ l => .pcsum a l) ∧
  ∀ (a l : Nat) (s : State),
    (256 < a + l → exec (.pcsum a l) s = .next { s with err := true, errcode := 2 }) ∧
    (a + l ≤ 256 → s.srcValid = false ∨ s.dstValid = false →
      exec (.pcsum a l) s = .next { s with err := true, errcode := 3 }) ∧
    (a + l ≤ 256 → s.srcValid = true → s.dstValid = true → l < 8 →
      exec (.pcsum a l) s = .next { s with err := true, errcode := 4 }) ∧
    (∀ hi lo : Byte, a + l ≤ 256 → s.srcValid = true → s.dstValid = true → 8 ≤ l →
      HoldsAt s.buf (a + 4) [hi, lo] → 256 * hi.toNat + lo.toNat ≠ l →
      exec (.pcsum a l) s = .next { s with err := true, errcode := 4 }) ∧
    (a + l ≤ 256 → s.srcValid = true → s.dstValid = true → 8 ≤ l → HasUndefined s.buf (a + 4) 2 →
      exec (.pcsum a l) s = .fault .undefinedByte) ∧
    (∀ hi lo : Byte, a + l ≤ 256 → s.srcValid = true → s.dstValid = true → 8 ≤ l →
      HoldsAt s.buf (a + 4) [hi, lo] → 256 * hi.toNat + lo.toNat = l → HasUndefined s.buf a l →
      exec (.pcsum a l) s = .fault .undefinedByte) ∧
    (∀ bs : List Byte, a + l ≤ 256 → s.srcValid = true → s.dstValid = true → 8 ≤ l → bs.length = l →
      HoldsAt s.buf a bs → netVal ((bs.drop 4).take 2) = l →
      exec (.pcsum a l) s = .next { s with
        acc := csumAcc (wirePseudo s l ++ bs)
        result := checksum (wirePseudo s l ++ bs)
        z := decide (checksum (wirePseudo s l ++ bs) = 0x0000)
        err := false
        errcode := 0 })

/-- R147. -/
def Obligations.PatchWritesResult : Prop :=
  RowDecodes 0x3 0xF00FFFFF 0x30000000 (fun a _ _ => .patch a) ∧
  ∀ (a : Nat) (s : State),
    (256 < a + 2 → exec (.patch a) s = .next { s with err := true, errcode := 2 }) ∧
    (a + 2 ≤ 256 → ∃ t, exec (.patch a) s = .next t ∧ HoldsAt t.buf a (netBytes 2 s.result.toNat) ∧
      SameOutside s.buf t.buf a 2 ∧ { t with buf := s.buf } = { s with err := false, errcode := 0 })

/-- R170. -/
def Obligations.SerIpWritesHeader : Prop :=
  RowDecodes 0x4 0xF00FFFFF 0x40000000 (fun a _ _ => .serIp a) ∧
  ∀ (a : Nat) (s : State),
    (256 < a + 20 → exec (.serIp a) s = .next { s with err := true, errcode := 2 }) ∧
    (a + 20 ≤ 256 → s.srcValid = false ∨ s.dstValid = false →
      exec (.serIp a) s = .next { s with err := true, errcode := 3 }) ∧
    (a + 20 ≤ 256 → s.srcValid = true → s.dstValid = true →
      ∃ t, exec (.serIp a) s = .next t ∧ HoldsAt t.buf a (wireIp s 0x0000) ∧ (wireIp s 0x0000).length = 20 ∧
        SameOutside s.buf t.buf a 20 ∧ { t with buf := s.buf } = { s with err := false, errcode := 0 })

/-- R171. -/
def Obligations.SerUdpWritesHeader : Prop :=
  RowDecodes 0x5 0xF00FFFFF 0x50000000 (fun a _ _ => .serUdp a) ∧
  ∀ (a : Nat) (s : State),
    (256 < a + 8 → exec (.serUdp a) s = .next { s with err := true, errcode := 2 }) ∧
    (a + 8 ≤ 256 → ∃ t, exec (.serUdp a) s = .next t ∧ HoldsAt t.buf a (wireUdp s 0x0000) ∧
      (wireUdp s 0x0000).length = 8 ∧ SameOutside s.buf t.buf a 8 ∧
      { t with buf := s.buf } = { s with err := false, errcode := 0 })

/-- R172. -/
def Obligations.SerPshWritesPseudoHeader : Prop :=
  RowDecodes 0x6 0xF00FFFFF 0x60000000 (fun a _ _ => .serPsh a) ∧
  ∀ (a : Nat) (s : State),
    (256 < a + 12 → exec (.serPsh a) s = .next { s with err := true, errcode := 2 }) ∧
    (a + 12 ≤ 256 → s.srcValid = false ∨ s.dstValid = false →
      exec (.serPsh a) s = .next { s with err := true, errcode := 3 }) ∧
    (a + 12 ≤ 256 → s.srcValid = true → s.dstValid = true →
      ∃ t, exec (.serPsh a) s = .next t ∧ HoldsAt t.buf a (wirePseudo s 56) ∧ (wirePseudo s 56).length = 12 ∧
        SameOutside s.buf t.buf a 12 ∧ { t with buf := s.buf } = { s with err := false, errcode := 0 })

/-- R173. -/
def Obligations.SerNtpWritesRequest : Prop :=
  RowDecodes 0x7 0xF00FFFFF 0x70000000 (fun a _ _ => .serNtp a) ∧
  ∀ (a : Nat) (s : State),
    (256 < a + 48 → exec (.serNtp a) s = .next { s with err := true, errcode := 2 }) ∧
    (a + 48 ≤ 256 → ∃ t, exec (.serNtp a) s = .next t ∧ HoldsAt t.buf a (0x1B :: List.replicate 47 0x00) ∧
      SameOutside s.buf t.buf a 48 ∧ { t with buf := s.buf } = { s with err := false, errcode := 0 })

/-- R201 (and R202, R203 through it): the UDP checksum over the pseudo-header and the UDP part with a zero field, then the IP
checksum over all 76 bytes with the UDP checksum patched. -/
def Obligations.AssembleWritesFrame : Prop :=
  RowDecodes 0x8 0xF00FFFFF 0x80000000 (fun a _ _ => .assemble a) ∧
  ∀ (a : Nat) (s : State),
    (256 < a + 76 → exec (.assemble a) s = .next { s with err := true, errcode := 2 }) ∧
    (a + 76 ≤ 256 → s.srcValid = false ∨ s.dstValid = false →
      exec (.assemble a) s = .next { s with err := true, errcode := 3 }) ∧
    (∀ (ucs ics : Half) (f : List Byte), a + 76 ≤ 256 → s.srcValid = true → s.dstValid = true →
      ucs = checksum (wirePseudo s 56 ++ wireUdp s 0x0000 ++ wireNtp) →
      f = wireIp s 0x0000 ++ wireUdp s ucs ++ wireNtp → ics = checksum f →
      ∃ t, exec (.assemble a) s = .next t ∧ HoldsAt t.buf a (wireIp s ics ++ wireUdp s ucs ++ wireNtp) ∧
        f.length = 76 ∧ SameOutside s.buf t.buf a 76 ∧
        { t with buf := s.buf } =
          { s with udpCsum := ucs, ipCsum := ics, result := ics, acc := csumAcc f, err := false, errcode := 0 })

/-- R174, R175. -/
def Obligations.DecodeNtpWritesFields : Prop :=
  RowDecodes 0x9 0xF00FFFFF 0x90000000 (fun a _ _ => .decodeNtp a) ∧
  ∀ (a : Nat) (s : State),
    (256 < a + 48 → exec (.decodeNtp a) s = .next { s with err := true, errcode := 2 }) ∧
    (a + 48 ≤ 256 → HasUndefined s.buf a 16 ∨ HasUndefined s.buf (a + 40) 8 →
      exec (.decodeNtp a) s = .fault .undefinedByte) ∧
    (∀ (h t : List Byte) (status secs : Nat), a + 48 ≤ 256 → h.length = 16 → t.length = 8 → HoldsAt s.buf a h →
      HoldsAt s.buf (a + 40) t → status = netVal (h.take 1) → secs = netVal (t.take 4) →
      exec (.decodeNtp a) s = .next { s with
        ntpW0 := BitVec.ofNat 32 (netVal (h.take 4))
        ntpUnpack := BitVec.ofNat 32 (2 ^ 16 * (status / 64) + 2 ^ 8 * (status / 8 % 8) + status % 8)
        ntpW1 := BitVec.ofNat 32 (netVal ((h.drop 4).take 4))
        ntpW2 := BitVec.ofNat 32 (netVal ((h.drop 8).take 4))
        ntpW3 := BitVec.ofNat 32 (netVal ((h.drop 12).take 4))
        ntpTxSecs := BitVec.ofNat 32 secs
        ntpTxFrac := BitVec.ofNat 32 (netVal ((t.drop 4).take 4))
        unixSecs := BitVec.ofNat 32 ((secs + 2 ^ 32 - 2208988800) % 2 ^ 32)
        borrow := decide (secs < 2208988800)
        err := false
        errcode := 0 })

/-- R207. -/
def Obligations.CopyMovesBytes : Prop :=
  RowDecodes 0xA 0xF0000E00 0xA0000000 (fun a b l => .copy a b l) ∧
  ∀ (a b l : Nat) (s : State),
    (256 < a + l ∨ 256 < b + l → exec (.copy a b l) s = .next { s with err := true, errcode := 2 }) ∧
    (a + l ≤ 256 → b + l ≤ 256 → HasUndefined s.buf b l → exec (.copy a b l) s = .fault .undefinedByte) ∧
    (∀ bs : List Byte, a + l ≤ 256 → b + l ≤ 256 → bs.length = l → HoldsAt s.buf b bs →
      ∃ t, exec (.copy a b l) s = .next t ∧ HoldsAt t.buf a bs ∧ SameOutside s.buf t.buf a l ∧
        { t with buf := s.buf } = { s with err := false, errcode := 0 })

/-- R208. -/
def Obligations.ZeroClearsBytes : Prop :=
  RowDecodes 0xB 0xF00FFE00 0xB0000000 (fun a _ l => .zero a l) ∧
  ∀ (a l : Nat) (s : State),
    (256 < a + l → exec (.zero a l) s = .next { s with err := true, errcode := 2 }) ∧
    (a + l ≤ 256 → ∃ t, exec (.zero a l) s = .next t ∧ HoldsAt t.buf a (List.replicate l 0x00) ∧
      SameOutside s.buf t.buf a l ∧ { t with buf := s.buf } = { s with err := false, errcode := 0 })

/-- R105, for the row of the opcode table that holds the reserved opcodes. -/
def Obligations.ReservedRaisesIllegal : Prop :=
  (∀ w : Word, 12 ≤ w.toNat / 2 ^ 28 →
    decode w = .instr (.reserved (BitVec.ofNat 4 (w.toNat / 2 ^ 28)) (BitVec.ofNat 28 w.toNat))) ∧
  ∀ (op : BitVec 4) (rest : BitVec 28) (s : State),
    exec (.reserved op rest) s = .next { s with err := true, errcode := 1 }

/-- R168: the status byte is packed and unpacked by shift and mask, and a client request's is 0x1B. -/
def Obligations.NtpStatusByte : Prop :=
  (∀ (li : BitVec 2) (vn mode : BitVec 3),
    (ntpStatusPack (li.setWidth 8) (vn.setWidth 8) (mode.setWidth 8)).toNat =
      64 * li.toNat + 8 * vn.toNat + mode.toNat) ∧
  (∀ b : Byte, (ntpLeap b).toNat = b.toNat / 64 ∧ (ntpVersion b).toNat = b.toNat / 8 % 8 ∧
    (ntpMode b).toNat = b.toNat % 8) ∧
  ntpStatusPack 0 3 3 = 0x1B

/-! ### The assembled frame -/

/-- R204: after a successful ASSEMBLE, CSUM over the frame and PCSUM over its UDP part both verify. -/
def Obligations.AssembledFrameVerifies : Prop :=
  ∀ (a : Nat) (s : State), a + 76 ≤ 256 → s.srcValid = true → s.dstValid = true →
    ∃ t u v, exec (.assemble a) s = .next t ∧
      exec (.csum a 76) t = .next u ∧ u.result = 0x0000 ∧ u.z = true ∧
      exec (.pcsum (a + 20) 56) t = .next v ∧ v.result = 0x0000 ∧ v.z = true

/-- R205: the frame and the registers ASSEMBLE writes depend on SRC_ADDR, DST_ADDR, SRC_PORT and IP_ID only. -/
def Obligations.AssembleIsIdempotent : Prop :=
  ∀ (a b : Nat) (s s' : State), a + 76 ≤ 256 → b + 76 ≤ 256 → s.srcValid = true → s.dstValid = true →
    s'.srcValid = true → s'.dstValid = true → s'.srcAddr = s.srcAddr → s'.dstAddr = s.dstAddr →
    s'.srcPort = s.srcPort → s'.ipId = s.ipId →
    ∃ t t', exec (.assemble a) s = .next t ∧ exec (.assemble b) s' = .next t' ∧
      (∀ k, k < 76 → t'.buf.read? (b + k) = t.buf.read? (a + k)) ∧
      t'.udpCsum = t.udpCsum ∧ t'.ipCsum = t.ipCsum ∧ t'.result = t.result ∧ t'.acc = t.acc

/-- R206: the primitive commands in the source's step order, over a scratch area apart from the frame, build ASSEMBLE's frame. -/
def Obligations.PrimitivesBuildTheFrame : Prop :=
  ∀ (f q : Nat) (s : State), f + 76 ≤ 256 → q + 68 ≤ 256 → f + 76 ≤ q ∨ q + 68 ≤ f →
    s.srcValid = true → s.dstValid = true →
    ∃ t u, exec (.assemble f) s = .next t ∧
      execAll [.serNtp (q + 20), .serUdp (q + 12), .serPsh q, .csum q 68, .patch (q + 18), .serIp f,
        .copy (f + 20) (q + 12) 56, .csum f 76, .patch (f + 10)] s = .next u ∧
      (∀ k, k < 76 → u.buf.read? (f + k) = t.buf.read? (f + k)) ∧ u.result = t.result ∧ u.acc = t.acc

/-! ### All commands -/

/-- R232: a command that ends with ERR = 1 has written ERR and ERRCODE and nothing else, and its code is 1 to 4; so has a command
word, legal or not. -/
def Obligations.FailedCommandIsPrecise : Prop :=
  (∀ (i : Instr) (s t : State), exec i s = .next t → t.err = true →
    t = { s with err := true, errcode := t.errcode } ∧ 1 ≤ t.errcode.toNat ∧ t.errcode.toNat ≤ 4) ∧
  (∀ (w : Word) (s t : State), executeWord w s = .next t → t.err = true →
    t = { s with err := true, errcode := t.errcode } ∧ 1 ≤ t.errcode.toNat ∧ t.errcode.toNat ≤ 4)

/-- R233: ILLEGAL before RANGE before UNRESOLVED before LENGTH, each raised whatever the later checks would find. -/
def Obligations.ErrorOrder : Prop :=
  (∀ (w : Word) (why : DecodeError) (s : State), decode w = .illegal why →
    executeWord w s = .next { s with err := true, errcode := 1 }) ∧
  ∀ (i : Instr) (s : State),
    (i.isReserved = true → exec i s = .next { s with err := true, errcode := 1 }) ∧
    (i.isReserved = false → (∃ r ∈ i.ranges, 256 < r.1 + r.2) →
      exec i s = .next { s with err := true, errcode := 2 }) ∧
    (i.isReserved = false → (∀ r ∈ i.ranges, r.1 + r.2 ≤ 256) → i.needsAddresses = true →
      s.srcValid = false ∨ s.dstValid = false → exec i s = .next { s with err := true, errcode := 3 }) ∧
    (i.isReserved = false → (∀ r ∈ i.ranges, r.1 + r.2 ≤ 256) →
      i.needsAddresses = false ∨ (s.srcValid = true ∧ s.dstValid = true) →
      ∀ t, exec i s = .next t → t.errcode = 0 ∨ (t.errcode = 4 ∧ ∃ a l, i = .pcsum a l))

/-- R48: which commands write Z, BORROW, ERR, ERRCODE, and that none writes SRC_VALID, DST_VALID or DROP. -/
def Obligations.FlagWriters : Prop :=
  ∀ (i : Instr) (s t : State), exec i s = .next t →
    (t.z ≠ s.z → t.err = false ∧ ∃ a l, i = .csum a l ∨ i = .pcsum a l) ∧
    (t.err = false → (∃ a l, i = .csum a l ∨ i = .pcsum a l) → t.z = decide (t.result = 0x0000)) ∧
    (t.borrow ≠ s.borrow → t.err = false ∧ ∃ a, i = .decodeNtp a) ∧
    (t.err = true ↔ t.errcode ≠ 0) ∧
    t.srcValid = s.srcValid ∧ t.dstValid = s.dstValid ∧ t.drop = s.drop

/-- R31, R32, R37 to R43, R25: which commands write each result register, and that no command writes an input register,
LAST_CMD or what is the HOST's. -/
def Obligations.RegisterWriters : Prop :=
  ∀ (i : Instr) (s t : State), exec i s = .next t →
    (t.result ≠ s.result ∨ t.acc ≠ s.acc → ∃ a l, i = .csum a l ∨ i = .pcsum a l ∨ i = .assemble a) ∧
    (t.udpCsum ≠ s.udpCsum ∨ t.ipCsum ≠ s.ipCsum → ∃ a, i = .assemble a) ∧
    (t.ntpW0 ≠ s.ntpW0 ∨ t.ntpUnpack ≠ s.ntpUnpack ∨ t.ntpW1 ≠ s.ntpW1 ∨ t.ntpW2 ≠ s.ntpW2 ∨ t.ntpW3 ≠ s.ntpW3 ∨
      t.ntpTxSecs ≠ s.ntpTxSecs ∨ t.ntpTxFrac ≠ s.ntpTxFrac ∨ t.unixSecs ≠ s.unixSecs → ∃ a, i = .decodeNtp a) ∧
    t.srcAddr = s.srcAddr ∧ t.dstAddr = s.dstAddr ∧ t.srcPort = s.srcPort ∧ t.ipId = s.ipId ∧
    t.lastCmd = s.lastCmd ∧ t.pending = s.pending ∧ t.window = s.window ∧ t.busData = s.busData ∧
    t.lastPoll = s.lastPoll ∧ t.agenda = s.agenda

/-- R145 to R208: a command changes no byte of BUF outside the range its rule writes, and a failed one changes none (R232). -/
def Obligations.MemoryFrame : Prop :=
  ∀ (i : Instr) (s t : State), exec i s = .next t →
    SameOutside s.buf t.buf i.stored.1 i.stored.2 ∧ (t.err = true → t.buf = s.buf)

/-- R45, R80, R139: with every BUF byte defined, every command completes. -/
def Obligations.CommandsCompleteOnDefinedBuf : Prop :=
  ∀ (i : Instr) (s : State), (∀ k, k < 256 → s.buf.read? k ≠ none) → ∃ t, exec i s = .next t

/-- R174, R80: DECODE_NTP depends on no byte of BUF but the message's bytes 0 to 15 and 40 to 47, whether or not the others are
defined. -/
def Obligations.DecodeNtpReadsOnly24Bytes : Prop :=
  ∀ (a : Nat) (s : State) (m : Memory),
    (∀ k, k < 16 ∨ (40 ≤ k ∧ k < 48) → m.read? (a + k) = s.buf.read? (a + k)) →
    (∀ t, exec (.decodeNtp a) s = .next t → exec (.decodeNtp a) { s with buf := m } = .next { t with buf := m }) ∧
    (∀ r, exec (.decodeNtp a) s = .fault r → exec (.decodeNtp a) { s with buf := m } = .fault r)

/-! ### Reset -/

/-- R49: the reset value of every register, and BUF undefined. -/
def Obligations.ResetValues : Prop :=
  State.reset.lastCmd = 0 ∧ State.reset.pending = none ∧ statusWord State.reset = 0 ∧ State.reset.result = 0 ∧
  State.reset.acc = 0 ∧ State.reset.srcAddr = 0 ∧ State.reset.dstAddr = 0 ∧
  State.reset.srcPort = Config.srcPortReset ∧ State.reset.ipId = Config.ipIdReset ∧
  State.reset.udpCsum = 0 ∧ State.reset.ipCsum = 0 ∧ State.reset.ntpW0 = 0 ∧ State.reset.ntpUnpack = 0 ∧
  State.reset.ntpW1 = 0 ∧ State.reset.ntpW2 = 0 ∧ State.reset.ntpW3 = 0 ∧ State.reset.ntpTxSecs = 0 ∧
  State.reset.ntpTxFrac = 0 ∧ State.reset.unixSecs = 0 ∧ ∀ k, State.reset.buf.read? k = none

/-- R260: asserting reset, in any state, puts every piece of the block's state into its value of R49; a command in flight is
abandoned. That the coming turns and what the HOST has read stay, and that the hazard interval closes, is the model's
(log 1, 8, 9, 26). -/
def Obligations.ResetInput : Prop :=
  ∀ (s : State) (rest : List Turn), s.agenda = .reset :: rest →
    step s = .next { State.reset with agenda := rest, busData := s.busData, lastPoll := s.lastPoll }

/-! ### HOST accesses -/

/-- R28: a CMD write is accepted with BUSY = 0 and dropped with BUSY = 1, whatever the word; a CMD read returns LAST_CMD. That a CMD
write with BUSY = 0 is accepted also while the hazard interval is still open (before STATUS has been read) is the model's inference
from R28 and P5, against R262's words that the write is dropped (log 23). Of the interval itself an acceptance says nothing here. -/
def Obligations.CmdRegister : Prop :=
  ∀ (s : State) (rest : List Turn) (w : Word),
    (s.agenda = .host (.write .word (Config.base + 0x000) w) :: rest → s.pending = none →
      ∃ t, step s = .next t ∧
        { t with window := s.window } = { s with agenda := rest, pending := some w, lastCmd := w }) ∧
    (s.agenda = .host (.write .word (Config.base + 0x000) w) :: rest → s.pending ≠ none →
      step s = .next { s with agenda := rest, drop := true }) ∧
    (s.agenda = .host (.read .word (Config.base + 0x000)) :: rest →
      step s = .next { s with agenda := rest, busData := some s.lastCmd })

/-- R29: the word a STATUS read returns, bit by bit, at any time; nothing else changes but the model's own fields: the hazard interval,
which closes when BUSY = 0 is returned (R262, log 9), and the BUSY bit last read (log 26). -/
def Obligations.StatusReadReturnsEveryField : Prop :=
  ∀ (s : State) (rest : List Turn), s.agenda = .host (.read .word (Config.base + 0x004)) :: rest →
    ∃ v : Word, step s = .next { s with
        agenda := rest, busData := some v, window := s.window && s.pending.isSome
        lastPoll := some s.pending.isSome } ∧
      v.getLsbD 0 = s.pending.isSome ∧ v.getLsbD 1 = s.err ∧ v.getLsbD 2 = s.z ∧ v.getLsbD 3 = s.borrow ∧
      v.extractLsb' 4 4 = s.errcode ∧ v.getLsbD 8 = s.srcValid ∧ v.getLsbD 9 = s.dstValid ∧ v.getLsbD 10 = s.drop ∧
      v.toNat < 2 ^ 11

/-- R30: a STATUS write clears DROP when its bit 10 is set and does nothing else, BUSY or not. -/
def Obligations.StatusWriteClearsDrop : Prop :=
  ∀ (s : State) (rest : List Turn) (w : Word), s.agenda = .host (.write .word (Config.base + 0x004) w) :: rest →
    (w.getLsbD 10 = true → step s = .next { s with agenda := rest, drop := false }) ∧
    (w.getLsbD 10 = false → step s = .next { s with agenda := rest })

/-- R33, R34: outside the hazard interval (R262), a write of an address sets it and its valid bit, whatever the value; a read
returns it at any time. -/
def Obligations.AddressRegisters : Prop :=
  ∀ (s : State) (rest : List Turn) (w : Word),
    (s.agenda = .host (.write .word (Config.base + 0x010) w) :: rest → s.window = false →
      step s = .next { s with agenda := rest, srcAddr := w, srcValid := true }) ∧
    (s.agenda = .host (.write .word (Config.base + 0x014) w) :: rest → s.window = false →
      step s = .next { s with agenda := rest, dstAddr := w, dstValid := true }) ∧
    (s.agenda = .host (.read .word (Config.base + 0x010)) :: rest →
      step s = .next { s with agenda := rest, busData := some s.srcAddr }) ∧
    (s.agenda = .host (.read .word (Config.base + 0x014)) :: rest →
      step s = .next { s with agenda := rest, busData := some s.dstAddr })

/-- R35, R36, R27: SRC_PORT and IP_ID keep bits 15:0 of a write, and read with bits 31:16 zero. -/
def Obligations.PortAndIdRegisters : Prop :=
  ∀ (s : State) (rest : List Turn) (w : Word),
    (s.agenda = .host (.write .word (Config.base + 0x018) w) :: rest → s.window = false →
      step s = .next { s with agenda := rest, srcPort := BitVec.ofNat 16 (w.toNat % 2 ^ 16) }) ∧
    (s.agenda = .host (.write .word (Config.base + 0x01C) w) :: rest → s.window = false →
      step s = .next { s with agenda := rest, ipId := BitVec.ofNat 16 (w.toNat % 2 ^ 16) }) ∧
    (s.agenda = .host (.read .word (Config.base + 0x018)) :: rest →
      step s = .next { s with agenda := rest, busData := some (BitVec.ofNat 32 s.srcPort.toNat) }) ∧
    (s.agenda = .host (.read .word (Config.base + 0x01C)) :: rest →
      step s = .next { s with agenda := rest, busData := some (BitVec.ofNat 32 s.ipId.toNat) })

/-- R27: reserved offsets read zero and ignore writes, read-only registers ignore writes, and the bits SRC_PORT and IP_ID do not
implement are ignored and read as zero. The writes are stated outside the hazard interval here, and inside it in BusyHazard
(log 11). -/
def Obligations.ReservedAndReadOnlyOffsets : Prop :=
  ∀ (s : State) (rest : List Turn) (w : Word) (off : Nat), off % 4 = 0 → off < 0x100 →
    (0x048 ≤ off → s.agenda = .host (.read .word (Config.base + off)) :: rest →
      step s = .next { s with agenda := rest, busData := some 0x00000000 }) ∧
    (off = 0x008 ∨ off = 0x00C ∨ 0x020 ≤ off → s.window = false →
      s.agenda = .host (.write .word (Config.base + off) w) :: rest → step s = .next { s with agenda := rest }) ∧
    (off = 0x018 ∨ off = 0x01C → s.window = false → s.agenda = .host (.write .word (Config.base + off) w) :: rest →
      ∃ t, step s = .next t ∧ step { s with
        agenda := .host (.write .word (Config.base + off) (w &&& 0x0000FFFF)) :: rest } = .next t) ∧
    (off = 0x018 ∨ off = 0x01C → s.agenda = .host (.read .word (Config.base + off)) :: rest →
      ∃ t v, step s = .next t ∧ t.busData = some v ∧ v.toNat < 2 ^ 16)

/-- R31, R32, R37 to R43: outside the hazard interval, what a read of each result register returns, with bits 31:16 zero where the
register has 16 bits. -/
def Obligations.ResultRegistersRead : Prop :=
  ∀ (s : State) (rest : List Turn), s.window = false →
    ∀ p ∈ [(0x008, s.result.setWidth 32), (0x00C, s.acc), (0x020, s.udpCsum.setWidth 32),
        (0x024, s.ipCsum.setWidth 32), (0x028, s.ntpW0), (0x02C, s.ntpUnpack), (0x030, s.ntpW1), (0x034, s.ntpW2),
        (0x038, s.ntpW3), (0x03C, s.ntpTxSecs), (0x040, s.ntpTxFrac), (0x044, s.unixSecs)],
      s.agenda = .host (.read .word (Config.base + p.1)) :: rest →
        step s = .next { s with agenda := rest, busData := some p.2 }

/-- R26, R76: a register access that is not 32-bit and 4-byte aligned, and a misaligned BUF access, stop the model. For an access that
R262 forbids as well, in the hazard interval, that this fault comes before HAZARD is the model's choice (log 10). -/
def Obligations.UnsupportedAccessFaults : Prop :=
  ∀ (s : State) (rest : List Turn) (width : Width) (off : Nat) (w : Word),
    (off < 0x100 ∧ (width ≠ .word ∨ off % 4 ≠ 0)) ∨ (0x100 ≤ off ∧ off < 0x200 ∧ (off - 0x100) % width.bytes ≠ 0) →
    (s.agenda = .host (.read width (Config.base + off)) :: rest → step s = .fault .unsupportedAccess) ∧
    (s.agenda = .host (.write width (Config.base + off) w) :: rest → step s = .fault .unsupportedAccess)

/-- R75: outside the hazard interval, a naturally aligned n-byte access at window offset 0x100 + a writes or reads
`BUF[a..a+n)`, most significant byte first on a big-endian bus and reversed on a little-endian one. -/
def Obligations.BufWindowAccess : Prop :=
  ∀ (s : State) (rest : List Turn) (width : Width) (a : Nat) (w : Word) (bs : List Byte),
    a < 256 → a % width.bytes = 0 → s.window = false → w.toNat < 256 ^ width.bytes →
    (s.agenda = .host (.write width (Config.base + (0x100 + a)) w) :: rest →
      ∃ t, step s = .next t ∧
        HoldsAt t.buf a (if Config.hostBusEndian = .big then netBytes width.bytes w.toNat
          else (netBytes width.bytes w.toNat).reverse) ∧
        SameOutside s.buf t.buf a width.bytes ∧ { t with buf := s.buf } = { s with agenda := rest }) ∧
    (s.agenda = .host (.read width (Config.base + (0x100 + a))) :: rest → bs.length = width.bytes →
      HoldsAt s.buf a bs →
      step s = .next { s with
        agenda := rest
        busData := some (BitVec.ofNat 32 (if Config.hostBusEndian = .big then netVal bs else netVal bs.reverse)) })

/-- R77, outside the hazard interval (R262) and for naturally aligned accesses (R76): after a 4-byte HOST write at a, 1-byte reads of
a to a+3 return its bytes in the order HOST_BUS_ENDIAN gives; a HOST read that takes in an undefined byte faults. -/
def Obligations.MixedWidthAccesses : Prop :=
  (∀ (s : State) (rest : List Turn) (a i : Nat) (w : Word), a < 256 → a % 4 = 0 → i < 4 → s.window = false →
    s.agenda = .host (.write .word (Config.base + (0x100 + a)) w)
      :: .host (.read .byte (Config.base + (0x100 + (a + i)))) :: rest →
    ∃ t u, step s = .next t ∧ step t = .next u ∧
      u.busData = some (BitVec.ofNat 32
        (if Config.hostBusEndian = .big then w.toNat / 256 ^ (3 - i) % 256 else w.toNat / 256 ^ i % 256))) ∧
  (∀ (s : State) (rest : List Turn) (width : Width) (a : Nat), a < 256 → a % width.bytes = 0 → s.window = false →
    s.agenda = .host (.read width (Config.base + (0x100 + a))) :: rest → HasUndefined s.buf a width.bytes →
    step s = .fault .undefinedByte)

/-- R262: in the hazard interval the forbidden accesses stop the model and the allowed ones do not; the interval opens at the
acceptance of a command and closes at the first STATUS read that returns BUSY = 0. The BUF accesses are the naturally aligned ones
(a misaligned one is UNSUPPORTED_ACCESS), and that an aligned read of an undefined byte is HAZARD and not UNDEFINED_BYTE is the
model's choice (log 10). That a write to a read-only register or a reserved offset is ignored in the interval too (R27) is the model's
inference (log 11). -/
def Obligations.BusyHazard : Prop :=
  (∀ (s : State) (rest : List Turn) (w : Word), s.window = true →
    (∀ (width : Width) (a : Nat), a < 256 → a % width.bytes = 0 →
      (s.agenda = .host (.read width (Config.base + (0x100 + a))) :: rest → step s = .fault .hazard) ∧
      (s.agenda = .host (.write width (Config.base + (0x100 + a)) w) :: rest → step s = .fault .hazard)) ∧
    (∀ off ∈ [0x010, 0x014, 0x018, 0x01C],
      s.agenda = .host (.write .word (Config.base + off) w) :: rest → step s = .fault .hazard) ∧
    (∀ off ∈ [0x008, 0x00C, 0x020, 0x024, 0x028, 0x02C, 0x030, 0x034, 0x038, 0x03C, 0x040, 0x044],
      s.agenda = .host (.read .word (Config.base + off)) :: rest → step s = .fault .hazard) ∧
    (∀ off, off % 4 = 0 → off ≤ 0x004 ∨ (0x010 ≤ off ∧ off ≤ 0x01C) ∨ (0x048 ≤ off ∧ off < 0x100) →
      s.agenda = .host (.read .word (Config.base + off)) :: rest →
      ∃ t, step s = .next t ∧ t.window = !(off == 0x004 && s.pending.isNone)) ∧
    (∀ off ∈ [0x000, 0x004], s.agenda = .host (.write .word (Config.base + off) w) :: rest →
      ∃ t, step s = .next t ∧ t.window = true) ∧
    (∀ off, off % 4 = 0 → off < 0x100 → off = 0x008 ∨ off = 0x00C ∨ 0x020 ≤ off →
      s.agenda = .host (.write .word (Config.base + off) w) :: rest → step s = .next { s with agenda := rest })) ∧
  (∀ (s : State) (rest : List Turn) (w : Word), s.pending = none →
    s.agenda = .host (.write .word (Config.base + 0x000) w) :: rest → ∃ t, step s = .next t ∧ t.window = true)

/-- R24 with log 5: a HOST access outside the block's window stops the model. The fault is the model's DESIGN CHOICE. -/
def Obligations.AccessOutsideWindowFaults : Prop :=
  ∀ (s : State) (rest : List Turn) (x : BusAccess), s.agenda = .host x :: rest →
    x.addr < Config.base ∨ Config.base + 0x200 ≤ x.addr → step s = .fault .outsideWindow

/-- R82: a HOST read changes nothing of the block's state. -/
def Obligations.HostReadsHaveNoSideEffect : Prop :=
  ∀ (s t : State) (rest : List Turn) (width : Width) (addr : Nat), s.agenda = .host (.read width addr) :: rest →
    step s = .next t →
    { t with busData := s.busData, window := s.window, lastPoll := s.lastPoll, agenda := s.agenda } = s

/-- R82: repeating a write to SRC_ADDR, DST_ADDR, SRC_PORT, IP_ID, STATUS or a BUF byte leaves the state of writing it once. -/
def Obligations.RepeatedWriteIsOneWrite : Prop :=
  ∀ (s t : State) (rest : List Turn) (width : Width) (off : Nat) (w : Word),
    (width = .word ∧ off ∈ [0x004, 0x010, 0x014, 0x018, 0x01C]) ∨ (width = .byte ∧ 0x100 ≤ off ∧ off < 0x200) →
    s.agenda = .host (.write width (Config.base + off) w) :: .host (.write width (Config.base + off) w) :: rest →
    step s = .next t → step t = .next { t with agenda := rest }

/-! ### Every step -/

/-- R262 and log 9: the hazard interval opens only at an accepted CMD write, and closes only at a STATUS read with BUSY = 0 or at a
reset. -/
def Obligations.HazardIntervalEnds : Prop :=
  ∀ s t : State, step s = .next t →
    (s.window = false → t.window = true → s.pending = none ∧
      ∃ w rest, s.agenda = .host (.write .word (Config.base + 0x000) w) :: rest) ∧
    (s.window = true → t.window = false →
      (s.pending = none ∧ ∃ rest, s.agenda = .host (.read .word (Config.base + 0x004)) :: rest) ∨
      ∃ rest, s.agenda = .reset :: rest)

/-- R28, R234, R260: LAST_CMD changes only when a CMD write is accepted, to the word written, or at reset. -/
def Obligations.LastCmdWriters : Prop :=
  ∀ s t : State, step s = .next t → t.lastCmd ≠ s.lastCmd →
    (∃ rest, s.pending = none ∧ s.agenda = .host (.write .word (Config.base + 0x000) t.lastCmd) :: rest) ∨
    (t.lastCmd = 0 ∧ ∃ rest, s.agenda = .reset :: rest)

/-- R48, R235: DROP is set only by a CMD write dropped while BUSY = 1 and cleared only by a STATUS write with bit 10 set or by
reset; SRC_VALID and DST_VALID are set only by writes of the addresses and cleared only by reset. -/
def Obligations.StickyBitWriters : Prop :=
  ∀ s t : State, step s = .next t →
    (s.drop = false → t.drop = true →
      s.pending ≠ none ∧ ∃ w rest, s.agenda = .host (.write .word (Config.base + 0x000) w) :: rest) ∧
    (s.drop = true → t.drop = false →
      (∃ w rest, w.getLsbD 10 = true ∧ s.agenda = .host (.write .word (Config.base + 0x004) w) :: rest) ∨
      ∃ rest, s.agenda = .reset :: rest) ∧
    (s.srcValid = false → t.srcValid = true →
      ∃ w rest, s.agenda = .host (.write .word (Config.base + 0x010) w) :: rest) ∧
    (s.dstValid = false → t.dstValid = true →
      ∃ w rest, s.agenda = .host (.write .word (Config.base + 0x014) w) :: rest) ∧
    ((s.srcValid = true ∧ t.srcValid = false) ∨ (s.dstValid = true ∧ t.dstValid = false) →
      ∃ rest, s.agenda = .reset :: rest)

/-- Every step keeps the invariant: BUF in canonical form, ERR and ERRCODE agreeing with no reserved code, LAST_CMD the pending word,
the hazard interval open while BUSY = 1, unwritten addresses at their reset value, and NTP_UNPACK, UNIX_SECS, BORROW those of the
message's words. -/
def Obligations.StepKeepsInvariant : Prop :=
  ∀ s t : State, s.Inv → step s = .next t → t.Inv

/-- The invariant holds after reset. -/
def Obligations.ResetMeetsInvariant : Prop := State.reset.Inv

/-- R267 and log 2: while the HOST only polls STATUS, n times, a pending command over a defined BUF completes. -/
def Obligations.PolledCommandCompletes : Prop :=
  ∀ (n : Nat) (s : State), (∀ k, k < 256 → s.buf.read? k ≠ none) → s.pending ≠ none →
    s.agenda = List.replicate n (.host (.read .word (Config.base + 0x004))) →
    ∃ t, RunsTo (n + 1) s t ∧ t.pending = none

/-- R269, R236: followed for n steps, a run that reaches a state where no HOST access is to come and the last STATUS read returned
BUSY = 0 is ended at the first such state; one that faults before is stopped with the fault; any other goes on; and it is ended or
stopped in no other way. What is observed is every register of the map and BUF, of the state it ended in, or of the state whose step
faulted (log 22). Which read the last STATUS read is, lastPoll says (log 26). -/
def Obligations.RunEndsAndIsObserved : Prop :=
  (∀ (n k : Nat) (s t : State), k ≤ n → RunsTo k s t → HasEnded t → (∀ j u, j < k → RunsTo j s u → ¬ HasEnded u) →
    runProgram n s = .ended (observe t none)) ∧
  (∀ (n k : Nat) (s t : State) (r : Fault), k < n → RunsTo k s t → step t = .fault r →
    (∀ j u, j ≤ k → RunsTo j s u → ¬ HasEnded u) → runProgram n s = .stopped (observe t (some r))) ∧
  (∀ (n : Nat) (s t : State), RunsTo n s t → (∀ j u, j ≤ n → RunsTo j s u → ¬ HasEnded u) → runProgram n s = .running t) ∧
  (∀ (n : Nat) (s : State) (o : Observation), runProgram n s = .ended o →
    ∃ k t, k ≤ n ∧ RunsTo k s t ∧ HasEnded t ∧ o = observe t none ∧ ∀ j u, j < k → RunsTo j s u → ¬ HasEnded u) ∧
  (∀ (n : Nat) (s : State) (o : Observation), runProgram n s = .stopped o →
    ∃ k t r, k < n ∧ RunsTo k s t ∧ step t = .fault r ∧ o = observe t (some r) ∧
      ∀ j u, j ≤ k → RunsTo j s u → ¬ HasEnded u) ∧
  (∀ (s : State) (f : Option Fault), (observe s f).buf = s.buf ∧ (observe s f).fault = f ∧
    ∀ off, off % 4 = 0 → off < 0x048 → (regAt off, readReg (regAt off) s) ∈ (observe s f).registers) ∧
  (∀ s t : State, step s = .next t →
    (∀ rest, s.agenda = .host (.read .word (Config.base + 0x004)) :: rest → t.lastPoll = some s.pending.isSome) ∧
    (t.lastPoll ≠ s.lastPoll → ∃ rest, s.agenda = .host (.read .word (Config.base + 0x004)) :: rest))
end

