-- ==== Sys2Proof/Laws/Memory.lean ====
section
/-! SUPPORT. What the operations over BUF do: a write reads back, leaves every other byte alone and keeps the canonical form, and
reading a range is reading its bytes. -/

namespace Sys2Proof.Machine

@[simp] theorem Memory.read?_nil (a : Nat) : Memory.read? [] a = none := rfl

theorem Memory.read?_eq_none_of_lt (m : Memory) (a : Nat) (h : ∀ c ∈ m, a < c.1) : m.read? a = none := by
  induction m with
  | nil => rfl
  | cons c rest ih =>
    obtain ⟨k, v⟩ := c
    have hk := h (k, v) (by simp)
    have : k ≠ a := by simp only at hk; omega
    simp only [Memory.read?, this, if_false]
    exact ih fun c hc => h c (by simp [hc])

/-- A byte written reads back, and every other byte is as before. -/
@[simp] theorem Memory.read?_insert (m : Memory) (a k : Nat) (b : Byte) :
    (Memory.insert a b m).read? k = if k = a then some b else m.read? k := by
  induction m with
  | nil => by_cases h : k = a <;> simp [Memory.insert, Memory.read?, h]; omega
  | cons c rest ih =>
    obtain ⟨j, v⟩ := c
    simp only [Memory.insert]
    split
    · by_cases h : k = a
      · simp [Memory.read?, h]
      · have : a ≠ k := fun e => h e.symm
        simp [Memory.read?, h, this]
    · split
      · rename_i h1 h2
        subst h2
        by_cases h : k = a
        · simp [Memory.read?, h]
        · have : a ≠ k := fun e => h e.symm
          simp [Memory.read?, h, this]
      · simp only [Memory.read?, ih]
        by_cases h : j = k
        · have : k ≠ a := by omega
          simp [h, this]
        · simp [h]

theorem Memory.mem_insert (m : Memory) (a : Nat) (b : Byte) (c : Host.Cell) (h : c ∈ Memory.insert a b m) :
    c = (a, b) ∨ c ∈ m := by
  induction m with
  | nil => simpa [Memory.insert] using h
  | cons d rest ih =>
    obtain ⟨j, v⟩ := d
    simp only [Memory.insert] at h
    split at h
    · simpa using h
    · split at h
      · rcases List.mem_cons.1 h with h | h
        · exact .inl h
        · exact .inr (by simp [h])
      · rcases List.mem_cons.1 h with h | h
        · exact .inr (by simp [h])
        · rcases ih h with h | h
          · exact .inl h
          · exact .inr (by simp [h])

/-- Writing one byte of BUF keeps the canonical form. -/
theorem Memory.insert_wf (m : Memory) (a : Nat) (b : Byte) (ha : a < Config.bufSize) (h : m.wf) :
    Memory.wf (Memory.insert a b m) := by
  obtain ⟨hs, hb⟩ := h
  refine ⟨?_, fun c hc => ?_⟩
  · clear hb
    induction m with
    | nil => simp [Memory.insert]
    | cons d rest ih =>
      obtain ⟨j, v⟩ := d
      rw [List.pairwise_cons] at hs
      simp only [Memory.insert]
      split
      · rename_i hlt
        refine List.pairwise_cons.2 ⟨fun c hc => ?_, List.pairwise_cons.2 hs⟩
        rcases List.mem_cons.1 hc with rfl | hc
        · exact hlt
        · exact Nat.lt_trans hlt (hs.1 c hc)
      · split
        · rename_i _ he
          exact List.pairwise_cons.2 ⟨fun c hc => by subst he; exact hs.1 c hc, hs.2⟩
        · refine List.pairwise_cons.2 ⟨fun c hc => ?_, ih hs.2⟩
          rcases Memory.mem_insert rest a b c hc with rfl | hc
          · simp only; omega
          · exact hs.1 c hc
  · rcases Memory.mem_insert m a b c hc with rfl | hc
    · exact ha
    · exact hb c hc

/-- What BUF reads as after a sequence is written from offset a on. -/
theorem Memory.read?_writeRange (bs : List Byte) (m : Memory) (a k : Nat) :
    (m.writeRange a bs).read? k = if a ≤ k ∧ k < a + bs.length then bs[k - a]? else m.read? k := by
  induction bs generalizing m a with
  | nil =>
    simp [Memory.writeRange]
  | cons b bs ih =>
    rw [Memory.writeRange, ih, Memory.read?_insert]
    by_cases hk : k = a
    · subst hk
      simp
    · by_cases hin : a + 1 ≤ k ∧ k < a + 1 + bs.length
      · have h2 : a ≤ k ∧ k < a + (b :: bs).length := by simp only [List.length_cons]; omega
        have h3 : k - a = (k - (a + 1)) + 1 := by omega
        rw [if_pos hin, if_pos h2, h3, List.getElem?_cons_succ]
      · have h2 : ¬(a ≤ k ∧ k < a + (b :: bs).length) := by simp only [List.length_cons]; omega
        rw [if_neg hin, if_neg h2, if_neg hk]

/-- Writing a range that fits BUF keeps the canonical form. -/
theorem Memory.writeRange_wf (bs : List Byte) (m : Memory) (a : Nat) (ha : a + bs.length ≤ Config.bufSize)
    (h : m.wf) : Memory.wf (m.writeRange a bs) := by
  induction bs generalizing m a with
  | nil => exact h
  | cons b bs ih =>
    simp only [List.length_cons] at ha
    exact ih _ (a + 1) (by omega) (Memory.insert_wf m a b (by omega) h)

/-- Reading a range answers a sequence exactly when the sequence is as long as the range and every byte of it is the byte read. -/
theorem Memory.readRange_eq_some_iff (n : Nat) (m : Memory) (a : Nat) (bs : List Byte) :
    m.readRange a n = some bs ↔ bs.length = n ∧ ∀ i, i < bs.length → m.read? (a + i) = bs[i]? := by
  induction n generalizing a bs with
  | zero =>
    cases bs <;> simp [Memory.readRange]
  | succ n ih =>
    simp only [Memory.readRange]
    constructor
    · intro h
      cases hb : m.read? a with
      | none => simp [hb] at h
      | some b =>
        cases hr : m.readRange (a + 1) n with
        | none => simp [hb, hr] at h
        | some cs =>
          simp only [hb, hr, Option.some.injEq] at h
          subst h
          obtain ⟨hl, hi⟩ := (ih (a + 1) cs).1 hr
          refine ⟨by simp [hl], fun i hlt => ?_⟩
          cases i with
          | zero => simpa using hb
          | succ i =>
            have := hi i (by simpa using hlt)
            rw [show a + (i + 1) = a + 1 + i by omega, this, List.getElem?_cons_succ]
    · rintro ⟨hl, hi⟩
      cases bs with
      | nil => simp at hl
      | cons b bs =>
        have h0 : m.read? a = some b := by simpa using hi 0 (by simp)
        have h1 : m.readRange (a + 1) n = some bs := by
          refine (ih (a + 1) bs).2 ⟨by simpa using hl, fun i hlt => ?_⟩
          have := hi (i + 1) (by simpa using hlt)
          rw [show a + 1 + i = a + (i + 1) by omega, this, List.getElem?_cons_succ]
        simp [h0, h1]

/-- Reading a range answers nothing exactly when one of its bytes is undefined. -/
theorem Memory.readRange_eq_none_iff (n : Nat) (m : Memory) (a : Nat) :
    m.readRange a n = none ↔ ∃ i, i < n ∧ m.read? (a + i) = none := by
  induction n generalizing a with
  | zero => simp [Memory.readRange]
  | succ n ih =>
    simp only [Memory.readRange]
    constructor
    · intro h
      cases hb : m.read? a with
      | none => exact ⟨0, by omega, hb⟩
      | some b =>
        cases hr : m.readRange (a + 1) n with
        | none =>
          obtain ⟨i, hi, hn⟩ := (ih (a + 1)).1 hr
          exact ⟨i + 1, by omega, by rw [show a + (i + 1) = a + 1 + i by omega]; exact hn⟩
        | some cs => simp [hb, hr] at h
    · rintro ⟨i, hi, hn⟩
      cases i with
      | zero =>
        rw [show m.read? a = none from hn]
      | succ i =>
        have : m.readRange (a + 1) n = none :=
          (ih (a + 1)).2 ⟨i, by omega, by rw [show a + 1 + i = a + (i + 1) by omega]; exact hn⟩
        rw [this]
        cases m.read? a <;> rfl

/-- BUF after reset is in canonical form. -/
theorem Memory.reset_wf : Memory.wf State.reset.buf := by decide

end Sys2Proof.Machine
end

