-- ==== Sys2Proof/Laws/State.lean ====
section
/-! SUPPORT. One lemma per field per update of the state, each true by rfl, so that no proof unfolds a record update. -/

namespace Sys2Proof.Machine

@[simp] theorem State.raise_lastCmd (s : State) (e : ErrorCode) : (s.raise e).lastCmd = s.lastCmd := rfl
@[simp] theorem State.raise_pending (s : State) (e : ErrorCode) : (s.raise e).pending = s.pending := rfl
@[simp] theorem State.raise_err (s : State) (e : ErrorCode) : (s.raise e).err = true := rfl
@[simp] theorem State.raise_z (s : State) (e : ErrorCode) : (s.raise e).z = s.z := rfl
@[simp] theorem State.raise_borrow (s : State) (e : ErrorCode) : (s.raise e).borrow = s.borrow := rfl
@[simp] theorem State.raise_errcode (s : State) (e : ErrorCode) : (s.raise e).errcode = e.code := rfl
@[simp] theorem State.raise_srcValid (s : State) (e : ErrorCode) : (s.raise e).srcValid = s.srcValid := rfl
@[simp] theorem State.raise_dstValid (s : State) (e : ErrorCode) : (s.raise e).dstValid = s.dstValid := rfl
@[simp] theorem State.raise_drop (s : State) (e : ErrorCode) : (s.raise e).drop = s.drop := rfl
@[simp] theorem State.raise_result (s : State) (e : ErrorCode) : (s.raise e).result = s.result := rfl
@[simp] theorem State.raise_acc (s : State) (e : ErrorCode) : (s.raise e).acc = s.acc := rfl
@[simp] theorem State.raise_srcAddr (s : State) (e : ErrorCode) : (s.raise e).srcAddr = s.srcAddr := rfl
@[simp] theorem State.raise_dstAddr (s : State) (e : ErrorCode) : (s.raise e).dstAddr = s.dstAddr := rfl
@[simp] theorem State.raise_srcPort (s : State) (e : ErrorCode) : (s.raise e).srcPort = s.srcPort := rfl
@[simp] theorem State.raise_ipId (s : State) (e : ErrorCode) : (s.raise e).ipId = s.ipId := rfl
@[simp] theorem State.raise_udpCsum (s : State) (e : ErrorCode) : (s.raise e).udpCsum = s.udpCsum := rfl
@[simp] theorem State.raise_ipCsum (s : State) (e : ErrorCode) : (s.raise e).ipCsum = s.ipCsum := rfl
@[simp] theorem State.raise_ntpW0 (s : State) (e : ErrorCode) : (s.raise e).ntpW0 = s.ntpW0 := rfl
@[simp] theorem State.raise_ntpUnpack (s : State) (e : ErrorCode) : (s.raise e).ntpUnpack = s.ntpUnpack := rfl
@[simp] theorem State.raise_ntpW1 (s : State) (e : ErrorCode) : (s.raise e).ntpW1 = s.ntpW1 := rfl
@[simp] theorem State.raise_ntpW2 (s : State) (e : ErrorCode) : (s.raise e).ntpW2 = s.ntpW2 := rfl
@[simp] theorem State.raise_ntpW3 (s : State) (e : ErrorCode) : (s.raise e).ntpW3 = s.ntpW3 := rfl
@[simp] theorem State.raise_ntpTxSecs (s : State) (e : ErrorCode) : (s.raise e).ntpTxSecs = s.ntpTxSecs := rfl
@[simp] theorem State.raise_ntpTxFrac (s : State) (e : ErrorCode) : (s.raise e).ntpTxFrac = s.ntpTxFrac := rfl
@[simp] theorem State.raise_unixSecs (s : State) (e : ErrorCode) : (s.raise e).unixSecs = s.unixSecs := rfl
@[simp] theorem State.raise_buf (s : State) (e : ErrorCode) : (s.raise e).buf = s.buf := rfl
@[simp] theorem State.raise_window (s : State) (e : ErrorCode) : (s.raise e).window = s.window := rfl
@[simp] theorem State.raise_busData (s : State) (e : ErrorCode) : (s.raise e).busData = s.busData := rfl
@[simp] theorem State.raise_lastPoll (s : State) (e : ErrorCode) : (s.raise e).lastPoll = s.lastPoll := rfl
@[simp] theorem State.raise_agenda (s : State) (e : ErrorCode) : (s.raise e).agenda = s.agenda := rfl

@[simp] theorem State.succeed_lastCmd (s : State) : (s.succeed).lastCmd = s.lastCmd := rfl
@[simp] theorem State.succeed_pending (s : State) : (s.succeed).pending = s.pending := rfl
@[simp] theorem State.succeed_err (s : State) : (s.succeed).err = false := rfl
@[simp] theorem State.succeed_z (s : State) : (s.succeed).z = s.z := rfl
@[simp] theorem State.succeed_borrow (s : State) : (s.succeed).borrow = s.borrow := rfl
@[simp] theorem State.succeed_errcode (s : State) : (s.succeed).errcode = 0 := rfl
@[simp] theorem State.succeed_srcValid (s : State) : (s.succeed).srcValid = s.srcValid := rfl
@[simp] theorem State.succeed_dstValid (s : State) : (s.succeed).dstValid = s.dstValid := rfl
@[simp] theorem State.succeed_drop (s : State) : (s.succeed).drop = s.drop := rfl
@[simp] theorem State.succeed_result (s : State) : (s.succeed).result = s.result := rfl
@[simp] theorem State.succeed_acc (s : State) : (s.succeed).acc = s.acc := rfl
@[simp] theorem State.succeed_srcAddr (s : State) : (s.succeed).srcAddr = s.srcAddr := rfl
@[simp] theorem State.succeed_dstAddr (s : State) : (s.succeed).dstAddr = s.dstAddr := rfl
@[simp] theorem State.succeed_srcPort (s : State) : (s.succeed).srcPort = s.srcPort := rfl
@[simp] theorem State.succeed_ipId (s : State) : (s.succeed).ipId = s.ipId := rfl
@[simp] theorem State.succeed_udpCsum (s : State) : (s.succeed).udpCsum = s.udpCsum := rfl
@[simp] theorem State.succeed_ipCsum (s : State) : (s.succeed).ipCsum = s.ipCsum := rfl
@[simp] theorem State.succeed_ntpW0 (s : State) : (s.succeed).ntpW0 = s.ntpW0 := rfl
@[simp] theorem State.succeed_ntpUnpack (s : State) : (s.succeed).ntpUnpack = s.ntpUnpack := rfl
@[simp] theorem State.succeed_ntpW1 (s : State) : (s.succeed).ntpW1 = s.ntpW1 := rfl
@[simp] theorem State.succeed_ntpW2 (s : State) : (s.succeed).ntpW2 = s.ntpW2 := rfl
@[simp] theorem State.succeed_ntpW3 (s : State) : (s.succeed).ntpW3 = s.ntpW3 := rfl
@[simp] theorem State.succeed_ntpTxSecs (s : State) : (s.succeed).ntpTxSecs = s.ntpTxSecs := rfl
@[simp] theorem State.succeed_ntpTxFrac (s : State) : (s.succeed).ntpTxFrac = s.ntpTxFrac := rfl
@[simp] theorem State.succeed_unixSecs (s : State) : (s.succeed).unixSecs = s.unixSecs := rfl
@[simp] theorem State.succeed_buf (s : State) : (s.succeed).buf = s.buf := rfl
@[simp] theorem State.succeed_window (s : State) : (s.succeed).window = s.window := rfl
@[simp] theorem State.succeed_busData (s : State) : (s.succeed).busData = s.busData := rfl
@[simp] theorem State.succeed_lastPoll (s : State) : (s.succeed).lastPoll = s.lastPoll := rfl
@[simp] theorem State.succeed_agenda (s : State) : (s.succeed).agenda = s.agenda := rfl

@[simp] theorem State.writeBuf_lastCmd (s : State) (a : Nat) (bs : List Byte) : (s.writeBuf a bs).lastCmd = s.lastCmd := rfl
@[simp] theorem State.writeBuf_pending (s : State) (a : Nat) (bs : List Byte) : (s.writeBuf a bs).pending = s.pending := rfl
@[simp] theorem State.writeBuf_err (s : State) (a : Nat) (bs : List Byte) : (s.writeBuf a bs).err = s.err := rfl
@[simp] theorem State.writeBuf_z (s : State) (a : Nat) (bs : List Byte) : (s.writeBuf a bs).z = s.z := rfl
@[simp] theorem State.writeBuf_borrow (s : State) (a : Nat) (bs : List Byte) : (s.writeBuf a bs).borrow = s.borrow := rfl
@[simp] theorem State.writeBuf_errcode (s : State) (a : Nat) (bs : List Byte) : (s.writeBuf a bs).errcode = s.errcode := rfl
@[simp] theorem State.writeBuf_srcValid (s : State) (a : Nat) (bs : List Byte) : (s.writeBuf a bs).srcValid = s.srcValid := rfl
@[simp] theorem State.writeBuf_dstValid (s : State) (a : Nat) (bs : List Byte) : (s.writeBuf a bs).dstValid = s.dstValid := rfl
@[simp] theorem State.writeBuf_drop (s : State) (a : Nat) (bs : List Byte) : (s.writeBuf a bs).drop = s.drop := rfl
@[simp] theorem State.writeBuf_result (s : State) (a : Nat) (bs : List Byte) : (s.writeBuf a bs).result = s.result := rfl
@[simp] theorem State.writeBuf_acc (s : State) (a : Nat) (bs : List Byte) : (s.writeBuf a bs).acc = s.acc := rfl
@[simp] theorem State.writeBuf_srcAddr (s : State) (a : Nat) (bs : List Byte) : (s.writeBuf a bs).srcAddr = s.srcAddr := rfl
@[simp] theorem State.writeBuf_dstAddr (s : State) (a : Nat) (bs : List Byte) : (s.writeBuf a bs).dstAddr = s.dstAddr := rfl
@[simp] theorem State.writeBuf_srcPort (s : State) (a : Nat) (bs : List Byte) : (s.writeBuf a bs).srcPort = s.srcPort := rfl
@[simp] theorem State.writeBuf_ipId (s : State) (a : Nat) (bs : List Byte) : (s.writeBuf a bs).ipId = s.ipId := rfl
@[simp] theorem State.writeBuf_udpCsum (s : State) (a : Nat) (bs : List Byte) : (s.writeBuf a bs).udpCsum = s.udpCsum := rfl
@[simp] theorem State.writeBuf_ipCsum (s : State) (a : Nat) (bs : List Byte) : (s.writeBuf a bs).ipCsum = s.ipCsum := rfl
@[simp] theorem State.writeBuf_ntpW0 (s : State) (a : Nat) (bs : List Byte) : (s.writeBuf a bs).ntpW0 = s.ntpW0 := rfl
@[simp] theorem State.writeBuf_ntpUnpack (s : State) (a : Nat) (bs : List Byte) : (s.writeBuf a bs).ntpUnpack = s.ntpUnpack := rfl
@[simp] theorem State.writeBuf_ntpW1 (s : State) (a : Nat) (bs : List Byte) : (s.writeBuf a bs).ntpW1 = s.ntpW1 := rfl
@[simp] theorem State.writeBuf_ntpW2 (s : State) (a : Nat) (bs : List Byte) : (s.writeBuf a bs).ntpW2 = s.ntpW2 := rfl
@[simp] theorem State.writeBuf_ntpW3 (s : State) (a : Nat) (bs : List Byte) : (s.writeBuf a bs).ntpW3 = s.ntpW3 := rfl
@[simp] theorem State.writeBuf_ntpTxSecs (s : State) (a : Nat) (bs : List Byte) : (s.writeBuf a bs).ntpTxSecs = s.ntpTxSecs := rfl
@[simp] theorem State.writeBuf_ntpTxFrac (s : State) (a : Nat) (bs : List Byte) : (s.writeBuf a bs).ntpTxFrac = s.ntpTxFrac := rfl
@[simp] theorem State.writeBuf_unixSecs (s : State) (a : Nat) (bs : List Byte) : (s.writeBuf a bs).unixSecs = s.unixSecs := rfl
@[simp] theorem State.writeBuf_buf (s : State) (a : Nat) (bs : List Byte) : (s.writeBuf a bs).buf = s.buf.writeRange a bs := rfl
@[simp] theorem State.writeBuf_window (s : State) (a : Nat) (bs : List Byte) : (s.writeBuf a bs).window = s.window := rfl
@[simp] theorem State.writeBuf_busData (s : State) (a : Nat) (bs : List Byte) : (s.writeBuf a bs).busData = s.busData := rfl
@[simp] theorem State.writeBuf_lastPoll (s : State) (a : Nat) (bs : List Byte) : (s.writeBuf a bs).lastPoll = s.lastPoll := rfl
@[simp] theorem State.writeBuf_agenda (s : State) (a : Nat) (bs : List Byte) : (s.writeBuf a bs).agenda = s.agenda := rfl

@[simp] theorem State.accept_lastCmd (s : State) (w : Word) : (s.accept w).lastCmd = w := rfl
@[simp] theorem State.accept_pending (s : State) (w : Word) : (s.accept w).pending = some w := rfl
@[simp] theorem State.accept_err (s : State) (w : Word) : (s.accept w).err = s.err := rfl
@[simp] theorem State.accept_z (s : State) (w : Word) : (s.accept w).z = s.z := rfl
@[simp] theorem State.accept_borrow (s : State) (w : Word) : (s.accept w).borrow = s.borrow := rfl
@[simp] theorem State.accept_errcode (s : State) (w : Word) : (s.accept w).errcode = s.errcode := rfl
@[simp] theorem State.accept_srcValid (s : State) (w : Word) : (s.accept w).srcValid = s.srcValid := rfl
@[simp] theorem State.accept_dstValid (s : State) (w : Word) : (s.accept w).dstValid = s.dstValid := rfl
@[simp] theorem State.accept_drop (s : State) (w : Word) : (s.accept w).drop = s.drop := rfl
@[simp] theorem State.accept_result (s : State) (w : Word) : (s.accept w).result = s.result := rfl
@[simp] theorem State.accept_acc (s : State) (w : Word) : (s.accept w).acc = s.acc := rfl
@[simp] theorem State.accept_srcAddr (s : State) (w : Word) : (s.accept w).srcAddr = s.srcAddr := rfl
@[simp] theorem State.accept_dstAddr (s : State) (w : Word) : (s.accept w).dstAddr = s.dstAddr := rfl
@[simp] theorem State.accept_srcPort (s : State) (w : Word) : (s.accept w).srcPort = s.srcPort := rfl
@[simp] theorem State.accept_ipId (s : State) (w : Word) : (s.accept w).ipId = s.ipId := rfl
@[simp] theorem State.accept_udpCsum (s : State) (w : Word) : (s.accept w).udpCsum = s.udpCsum := rfl
@[simp] theorem State.accept_ipCsum (s : State) (w : Word) : (s.accept w).ipCsum = s.ipCsum := rfl
@[simp] theorem State.accept_ntpW0 (s : State) (w : Word) : (s.accept w).ntpW0 = s.ntpW0 := rfl
@[simp] theorem State.accept_ntpUnpack (s : State) (w : Word) : (s.accept w).ntpUnpack = s.ntpUnpack := rfl
@[simp] theorem State.accept_ntpW1 (s : State) (w : Word) : (s.accept w).ntpW1 = s.ntpW1 := rfl
@[simp] theorem State.accept_ntpW2 (s : State) (w : Word) : (s.accept w).ntpW2 = s.ntpW2 := rfl
@[simp] theorem State.accept_ntpW3 (s : State) (w : Word) : (s.accept w).ntpW3 = s.ntpW3 := rfl
@[simp] theorem State.accept_ntpTxSecs (s : State) (w : Word) : (s.accept w).ntpTxSecs = s.ntpTxSecs := rfl
@[simp] theorem State.accept_ntpTxFrac (s : State) (w : Word) : (s.accept w).ntpTxFrac = s.ntpTxFrac := rfl
@[simp] theorem State.accept_unixSecs (s : State) (w : Word) : (s.accept w).unixSecs = s.unixSecs := rfl
@[simp] theorem State.accept_buf (s : State) (w : Word) : (s.accept w).buf = s.buf := rfl
@[simp] theorem State.accept_window (s : State) (w : Word) : (s.accept w).window = true := rfl
@[simp] theorem State.accept_busData (s : State) (w : Word) : (s.accept w).busData = s.busData := rfl
@[simp] theorem State.accept_lastPoll (s : State) (w : Word) : (s.accept w).lastPoll = s.lastPoll := rfl
@[simp] theorem State.accept_agenda (s : State) (w : Word) : (s.accept w).agenda = s.agenda := rfl

@[simp] theorem State.finish_lastCmd (s : State) : (s.finish).lastCmd = s.lastCmd := rfl
@[simp] theorem State.finish_pending (s : State) : (s.finish).pending = none := rfl
@[simp] theorem State.finish_err (s : State) : (s.finish).err = s.err := rfl
@[simp] theorem State.finish_z (s : State) : (s.finish).z = s.z := rfl
@[simp] theorem State.finish_borrow (s : State) : (s.finish).borrow = s.borrow := rfl
@[simp] theorem State.finish_errcode (s : State) : (s.finish).errcode = s.errcode := rfl
@[simp] theorem State.finish_srcValid (s : State) : (s.finish).srcValid = s.srcValid := rfl
@[simp] theorem State.finish_dstValid (s : State) : (s.finish).dstValid = s.dstValid := rfl
@[simp] theorem State.finish_drop (s : State) : (s.finish).drop = s.drop := rfl
@[simp] theorem State.finish_result (s : State) : (s.finish).result = s.result := rfl
@[simp] theorem State.finish_acc (s : State) : (s.finish).acc = s.acc := rfl
@[simp] theorem State.finish_srcAddr (s : State) : (s.finish).srcAddr = s.srcAddr := rfl
@[simp] theorem State.finish_dstAddr (s : State) : (s.finish).dstAddr = s.dstAddr := rfl
@[simp] theorem State.finish_srcPort (s : State) : (s.finish).srcPort = s.srcPort := rfl
@[simp] theorem State.finish_ipId (s : State) : (s.finish).ipId = s.ipId := rfl
@[simp] theorem State.finish_udpCsum (s : State) : (s.finish).udpCsum = s.udpCsum := rfl
@[simp] theorem State.finish_ipCsum (s : State) : (s.finish).ipCsum = s.ipCsum := rfl
@[simp] theorem State.finish_ntpW0 (s : State) : (s.finish).ntpW0 = s.ntpW0 := rfl
@[simp] theorem State.finish_ntpUnpack (s : State) : (s.finish).ntpUnpack = s.ntpUnpack := rfl
@[simp] theorem State.finish_ntpW1 (s : State) : (s.finish).ntpW1 = s.ntpW1 := rfl
@[simp] theorem State.finish_ntpW2 (s : State) : (s.finish).ntpW2 = s.ntpW2 := rfl
@[simp] theorem State.finish_ntpW3 (s : State) : (s.finish).ntpW3 = s.ntpW3 := rfl
@[simp] theorem State.finish_ntpTxSecs (s : State) : (s.finish).ntpTxSecs = s.ntpTxSecs := rfl
@[simp] theorem State.finish_ntpTxFrac (s : State) : (s.finish).ntpTxFrac = s.ntpTxFrac := rfl
@[simp] theorem State.finish_unixSecs (s : State) : (s.finish).unixSecs = s.unixSecs := rfl
@[simp] theorem State.finish_buf (s : State) : (s.finish).buf = s.buf := rfl
@[simp] theorem State.finish_window (s : State) : (s.finish).window = s.window := rfl
@[simp] theorem State.finish_busData (s : State) : (s.finish).busData = s.busData := rfl
@[simp] theorem State.finish_lastPoll (s : State) : (s.finish).lastPoll = s.lastPoll := rfl
@[simp] theorem State.finish_agenda (s : State) : (s.finish).agenda = s.agenda := rfl

@[simp] theorem State.setChecksum_lastCmd (s : State) (bs : List Byte) : (s.setChecksum bs).lastCmd = s.lastCmd := rfl
@[simp] theorem State.setChecksum_pending (s : State) (bs : List Byte) : (s.setChecksum bs).pending = s.pending := rfl
@[simp] theorem State.setChecksum_err (s : State) (bs : List Byte) : (s.setChecksum bs).err = s.err := rfl
@[simp] theorem State.setChecksum_z (s : State) (bs : List Byte) : (s.setChecksum bs).z = zFlag (checksum bs) := rfl
@[simp] theorem State.setChecksum_borrow (s : State) (bs : List Byte) : (s.setChecksum bs).borrow = s.borrow := rfl
@[simp] theorem State.setChecksum_errcode (s : State) (bs : List Byte) : (s.setChecksum bs).errcode = s.errcode := rfl
@[simp] theorem State.setChecksum_srcValid (s : State) (bs : List Byte) : (s.setChecksum bs).srcValid = s.srcValid := rfl
@[simp] theorem State.setChecksum_dstValid (s : State) (bs : List Byte) : (s.setChecksum bs).dstValid = s.dstValid := rfl
@[simp] theorem State.setChecksum_drop (s : State) (bs : List Byte) : (s.setChecksum bs).drop = s.drop := rfl
@[simp] theorem State.setChecksum_result (s : State) (bs : List Byte) : (s.setChecksum bs).result = checksum bs := rfl
@[simp] theorem State.setChecksum_acc (s : State) (bs : List Byte) : (s.setChecksum bs).acc = csumAcc bs := rfl
@[simp] theorem State.setChecksum_srcAddr (s : State) (bs : List Byte) : (s.setChecksum bs).srcAddr = s.srcAddr := rfl
@[simp] theorem State.setChecksum_dstAddr (s : State) (bs : List Byte) : (s.setChecksum bs).dstAddr = s.dstAddr := rfl
@[simp] theorem State.setChecksum_srcPort (s : State) (bs : List Byte) : (s.setChecksum bs).srcPort = s.srcPort := rfl
@[simp] theorem State.setChecksum_ipId (s : State) (bs : List Byte) : (s.setChecksum bs).ipId = s.ipId := rfl
@[simp] theorem State.setChecksum_udpCsum (s : State) (bs : List Byte) : (s.setChecksum bs).udpCsum = s.udpCsum := rfl
@[simp] theorem State.setChecksum_ipCsum (s : State) (bs : List Byte) : (s.setChecksum bs).ipCsum = s.ipCsum := rfl
@[simp] theorem State.setChecksum_ntpW0 (s : State) (bs : List Byte) : (s.setChecksum bs).ntpW0 = s.ntpW0 := rfl
@[simp] theorem State.setChecksum_ntpUnpack (s : State) (bs : List Byte) : (s.setChecksum bs).ntpUnpack = s.ntpUnpack := rfl
@[simp] theorem State.setChecksum_ntpW1 (s : State) (bs : List Byte) : (s.setChecksum bs).ntpW1 = s.ntpW1 := rfl
@[simp] theorem State.setChecksum_ntpW2 (s : State) (bs : List Byte) : (s.setChecksum bs).ntpW2 = s.ntpW2 := rfl
@[simp] theorem State.setChecksum_ntpW3 (s : State) (bs : List Byte) : (s.setChecksum bs).ntpW3 = s.ntpW3 := rfl
@[simp] theorem State.setChecksum_ntpTxSecs (s : State) (bs : List Byte) : (s.setChecksum bs).ntpTxSecs = s.ntpTxSecs := rfl
@[simp] theorem State.setChecksum_ntpTxFrac (s : State) (bs : List Byte) : (s.setChecksum bs).ntpTxFrac = s.ntpTxFrac := rfl
@[simp] theorem State.setChecksum_unixSecs (s : State) (bs : List Byte) : (s.setChecksum bs).unixSecs = s.unixSecs := rfl
@[simp] theorem State.setChecksum_buf (s : State) (bs : List Byte) : (s.setChecksum bs).buf = s.buf := rfl
@[simp] theorem State.setChecksum_window (s : State) (bs : List Byte) : (s.setChecksum bs).window = s.window := rfl
@[simp] theorem State.setChecksum_busData (s : State) (bs : List Byte) : (s.setChecksum bs).busData = s.busData := rfl
@[simp] theorem State.setChecksum_lastPoll (s : State) (bs : List Byte) : (s.setChecksum bs).lastPoll = s.lastPoll := rfl
@[simp] theorem State.setChecksum_agenda (s : State) (bs : List Byte) : (s.setChecksum bs).agenda = s.agenda := rfl

@[simp] theorem State.setNtp_lastCmd (s : State) (h t : List Byte) : (s.setNtp h t).lastCmd = s.lastCmd := rfl
@[simp] theorem State.setNtp_pending (s : State) (h t : List Byte) : (s.setNtp h t).pending = s.pending := rfl
@[simp] theorem State.setNtp_err (s : State) (h t : List Byte) : (s.setNtp h t).err = s.err := rfl
@[simp] theorem State.setNtp_z (s : State) (h t : List Byte) : (s.setNtp h t).z = s.z := rfl
@[simp] theorem State.setNtp_borrow (s : State) (h t : List Byte) : (s.setNtp h t).borrow = borrowFlag (rd32 t 0) := rfl
@[simp] theorem State.setNtp_errcode (s : State) (h t : List Byte) : (s.setNtp h t).errcode = s.errcode := rfl
@[simp] theorem State.setNtp_srcValid (s : State) (h t : List Byte) : (s.setNtp h t).srcValid = s.srcValid := rfl
@[simp] theorem State.setNtp_dstValid (s : State) (h t : List Byte) : (s.setNtp h t).dstValid = s.dstValid := rfl
@[simp] theorem State.setNtp_drop (s : State) (h t : List Byte) : (s.setNtp h t).drop = s.drop := rfl
@[simp] theorem State.setNtp_result (s : State) (h t : List Byte) : (s.setNtp h t).result = s.result := rfl
@[simp] theorem State.setNtp_acc (s : State) (h t : List Byte) : (s.setNtp h t).acc = s.acc := rfl
@[simp] theorem State.setNtp_srcAddr (s : State) (h t : List Byte) : (s.setNtp h t).srcAddr = s.srcAddr := rfl
@[simp] theorem State.setNtp_dstAddr (s : State) (h t : List Byte) : (s.setNtp h t).dstAddr = s.dstAddr := rfl
@[simp] theorem State.setNtp_srcPort (s : State) (h t : List Byte) : (s.setNtp h t).srcPort = s.srcPort := rfl
@[simp] theorem State.setNtp_ipId (s : State) (h t : List Byte) : (s.setNtp h t).ipId = s.ipId := rfl
@[simp] theorem State.setNtp_udpCsum (s : State) (h t : List Byte) : (s.setNtp h t).udpCsum = s.udpCsum := rfl
@[simp] theorem State.setNtp_ipCsum (s : State) (h t : List Byte) : (s.setNtp h t).ipCsum = s.ipCsum := rfl
@[simp] theorem State.setNtp_ntpW0 (s : State) (h t : List Byte) : (s.setNtp h t).ntpW0 = rd32 h 0 := rfl
@[simp] theorem State.setNtp_ntpUnpack (s : State) (h t : List Byte) : (s.setNtp h t).ntpUnpack = ntpUnpackWord (byteAt h 0) := rfl
@[simp] theorem State.setNtp_ntpW1 (s : State) (h t : List Byte) : (s.setNtp h t).ntpW1 = rd32 h 4 := rfl
@[simp] theorem State.setNtp_ntpW2 (s : State) (h t : List Byte) : (s.setNtp h t).ntpW2 = rd32 h 8 := rfl
@[simp] theorem State.setNtp_ntpW3 (s : State) (h t : List Byte) : (s.setNtp h t).ntpW3 = rd32 h 12 := rfl
@[simp] theorem State.setNtp_ntpTxSecs (s : State) (h t : List Byte) : (s.setNtp h t).ntpTxSecs = rd32 t 0 := rfl
@[simp] theorem State.setNtp_ntpTxFrac (s : State) (h t : List Byte) : (s.setNtp h t).ntpTxFrac = rd32 t 4 := rfl
@[simp] theorem State.setNtp_unixSecs (s : State) (h t : List Byte) : (s.setNtp h t).unixSecs = unixSeconds (rd32 t 0) := rfl
@[simp] theorem State.setNtp_buf (s : State) (h t : List Byte) : (s.setNtp h t).buf = s.buf := rfl
@[simp] theorem State.setNtp_window (s : State) (h t : List Byte) : (s.setNtp h t).window = s.window := rfl
@[simp] theorem State.setNtp_busData (s : State) (h t : List Byte) : (s.setNtp h t).busData = s.busData := rfl
@[simp] theorem State.setNtp_lastPoll (s : State) (h t : List Byte) : (s.setNtp h t).lastPoll = s.lastPoll := rfl
@[simp] theorem State.setNtp_agenda (s : State) (h t : List Byte) : (s.setNtp h t).agenda = s.agenda := rfl

@[simp] theorem State.setSums_lastCmd (s : State) (ucs ics : Half) (acc : Word) : (s.setSums ucs ics acc).lastCmd = s.lastCmd := rfl
@[simp] theorem State.setSums_pending (s : State) (ucs ics : Half) (acc : Word) : (s.setSums ucs ics acc).pending = s.pending := rfl
@[simp] theorem State.setSums_err (s : State) (ucs ics : Half) (acc : Word) : (s.setSums ucs ics acc).err = s.err := rfl
@[simp] theorem State.setSums_z (s : State) (ucs ics : Half) (acc : Word) : (s.setSums ucs ics acc).z = s.z := rfl
@[simp] theorem State.setSums_borrow (s : State) (ucs ics : Half) (acc : Word) : (s.setSums ucs ics acc).borrow = s.borrow := rfl
@[simp] theorem State.setSums_errcode (s : State) (ucs ics : Half) (acc : Word) : (s.setSums ucs ics acc).errcode = s.errcode := rfl
@[simp] theorem State.setSums_srcValid (s : State) (ucs ics : Half) (acc : Word) : (s.setSums ucs ics acc).srcValid = s.srcValid := rfl
@[simp] theorem State.setSums_dstValid (s : State) (ucs ics : Half) (acc : Word) : (s.setSums ucs ics acc).dstValid = s.dstValid := rfl
@[simp] theorem State.setSums_drop (s : State) (ucs ics : Half) (acc : Word) : (s.setSums ucs ics acc).drop = s.drop := rfl
@[simp] theorem State.setSums_result (s : State) (ucs ics : Half) (acc : Word) : (s.setSums ucs ics acc).result = ics := rfl
@[simp] theorem State.setSums_acc (s : State) (ucs ics : Half) (acc : Word) : (s.setSums ucs ics acc).acc = acc := rfl
@[simp] theorem State.setSums_srcAddr (s : State) (ucs ics : Half) (acc : Word) : (s.setSums ucs ics acc).srcAddr = s.srcAddr := rfl
@[simp] theorem State.setSums_dstAddr (s : State) (ucs ics : Half) (acc : Word) : (s.setSums ucs ics acc).dstAddr = s.dstAddr := rfl
@[simp] theorem State.setSums_srcPort (s : State) (ucs ics : Half) (acc : Word) : (s.setSums ucs ics acc).srcPort = s.srcPort := rfl
@[simp] theorem State.setSums_ipId (s : State) (ucs ics : Half) (acc : Word) : (s.setSums ucs ics acc).ipId = s.ipId := rfl
@[simp] theorem State.setSums_udpCsum (s : State) (ucs ics : Half) (acc : Word) : (s.setSums ucs ics acc).udpCsum = ucs := rfl
@[simp] theorem State.setSums_ipCsum (s : State) (ucs ics : Half) (acc : Word) : (s.setSums ucs ics acc).ipCsum = ics := rfl
@[simp] theorem State.setSums_ntpW0 (s : State) (ucs ics : Half) (acc : Word) : (s.setSums ucs ics acc).ntpW0 = s.ntpW0 := rfl
@[simp] theorem State.setSums_ntpUnpack (s : State) (ucs ics : Half) (acc : Word) : (s.setSums ucs ics acc).ntpUnpack = s.ntpUnpack := rfl
@[simp] theorem State.setSums_ntpW1 (s : State) (ucs ics : Half) (acc : Word) : (s.setSums ucs ics acc).ntpW1 = s.ntpW1 := rfl
@[simp] theorem State.setSums_ntpW2 (s : State) (ucs ics : Half) (acc : Word) : (s.setSums ucs ics acc).ntpW2 = s.ntpW2 := rfl
@[simp] theorem State.setSums_ntpW3 (s : State) (ucs ics : Half) (acc : Word) : (s.setSums ucs ics acc).ntpW3 = s.ntpW3 := rfl
@[simp] theorem State.setSums_ntpTxSecs (s : State) (ucs ics : Half) (acc : Word) : (s.setSums ucs ics acc).ntpTxSecs = s.ntpTxSecs := rfl
@[simp] theorem State.setSums_ntpTxFrac (s : State) (ucs ics : Half) (acc : Word) : (s.setSums ucs ics acc).ntpTxFrac = s.ntpTxFrac := rfl
@[simp] theorem State.setSums_unixSecs (s : State) (ucs ics : Half) (acc : Word) : (s.setSums ucs ics acc).unixSecs = s.unixSecs := rfl
@[simp] theorem State.setSums_buf (s : State) (ucs ics : Half) (acc : Word) : (s.setSums ucs ics acc).buf = s.buf := rfl
@[simp] theorem State.setSums_window (s : State) (ucs ics : Half) (acc : Word) : (s.setSums ucs ics acc).window = s.window := rfl
@[simp] theorem State.setSums_busData (s : State) (ucs ics : Half) (acc : Word) : (s.setSums ucs ics acc).busData = s.busData := rfl
@[simp] theorem State.setSums_lastPoll (s : State) (ucs ics : Half) (acc : Word) : (s.setSums ucs ics acc).lastPoll = s.lastPoll := rfl
@[simp] theorem State.setSums_agenda (s : State) (ucs ics : Half) (acc : Word) : (s.setSums ucs ics acc).agenda = s.agenda := rfl

@[simp] theorem State.applyReset_lastCmd (s : State) : s.applyReset.lastCmd = State.reset.lastCmd := rfl
@[simp] theorem State.applyReset_pending (s : State) : s.applyReset.pending = State.reset.pending := rfl
@[simp] theorem State.applyReset_err (s : State) : s.applyReset.err = State.reset.err := rfl
@[simp] theorem State.applyReset_z (s : State) : s.applyReset.z = State.reset.z := rfl
@[simp] theorem State.applyReset_borrow (s : State) : s.applyReset.borrow = State.reset.borrow := rfl
@[simp] theorem State.applyReset_errcode (s : State) : s.applyReset.errcode = State.reset.errcode := rfl
@[simp] theorem State.applyReset_srcValid (s : State) : s.applyReset.srcValid = State.reset.srcValid := rfl
@[simp] theorem State.applyReset_dstValid (s : State) : s.applyReset.dstValid = State.reset.dstValid := rfl
@[simp] theorem State.applyReset_drop (s : State) : s.applyReset.drop = State.reset.drop := rfl
@[simp] theorem State.applyReset_result (s : State) : s.applyReset.result = State.reset.result := rfl
@[simp] theorem State.applyReset_acc (s : State) : s.applyReset.acc = State.reset.acc := rfl
@[simp] theorem State.applyReset_srcAddr (s : State) : s.applyReset.srcAddr = State.reset.srcAddr := rfl
@[simp] theorem State.applyReset_dstAddr (s : State) : s.applyReset.dstAddr = State.reset.dstAddr := rfl
@[simp] theorem State.applyReset_srcPort (s : State) : s.applyReset.srcPort = State.reset.srcPort := rfl
@[simp] theorem State.applyReset_ipId (s : State) : s.applyReset.ipId = State.reset.ipId := rfl
@[simp] theorem State.applyReset_udpCsum (s : State) : s.applyReset.udpCsum = State.reset.udpCsum := rfl
@[simp] theorem State.applyReset_ipCsum (s : State) : s.applyReset.ipCsum = State.reset.ipCsum := rfl
@[simp] theorem State.applyReset_ntpW0 (s : State) : s.applyReset.ntpW0 = State.reset.ntpW0 := rfl
@[simp] theorem State.applyReset_ntpUnpack (s : State) : s.applyReset.ntpUnpack = State.reset.ntpUnpack := rfl
@[simp] theorem State.applyReset_ntpW1 (s : State) : s.applyReset.ntpW1 = State.reset.ntpW1 := rfl
@[simp] theorem State.applyReset_ntpW2 (s : State) : s.applyReset.ntpW2 = State.reset.ntpW2 := rfl
@[simp] theorem State.applyReset_ntpW3 (s : State) : s.applyReset.ntpW3 = State.reset.ntpW3 := rfl
@[simp] theorem State.applyReset_ntpTxSecs (s : State) : s.applyReset.ntpTxSecs = State.reset.ntpTxSecs := rfl
@[simp] theorem State.applyReset_ntpTxFrac (s : State) : s.applyReset.ntpTxFrac = State.reset.ntpTxFrac := rfl
@[simp] theorem State.applyReset_unixSecs (s : State) : s.applyReset.unixSecs = State.reset.unixSecs := rfl
@[simp] theorem State.applyReset_buf (s : State) : s.applyReset.buf = State.reset.buf := rfl
@[simp] theorem State.applyReset_window (s : State) : s.applyReset.window = State.reset.window := rfl
@[simp] theorem State.applyReset_busData (s : State) : s.applyReset.busData = s.busData := rfl
@[simp] theorem State.applyReset_lastPoll (s : State) : s.applyReset.lastPoll = s.lastPoll := rfl
@[simp] theorem State.applyReset_agenda (s : State) : s.applyReset.agenda = s.agenda := rfl

end Sys2Proof.Machine
end

