-- ==== Sys2Proof/Laws/Ops.lean ====
section
/-! SUPPORT. What each shared operation can do, said once: the operand checks, the bus access and the machine's turn. -/

namespace Sys2Proof.Machine

theorem ifFits_of_le (s : State) (a n : Nat) (body : Result) (h : a + n ≤ 256) : ifFits s a n body = body :=
  if_pos h

theorem ifFits_of_gt (s : State) (a n : Nat) (body : Result) (h : 256 < a + n) :
    ifFits s a n body = .next (s.raise .range) :=
  if_neg (by simp only [Config.bufSize]; omega)

/-- Where a range check answers a next state, either RANGE was raised or the range fits and the rest of the command answered it. -/
theorem ifFits_next (s t : State) (a n : Nat) (body : Result) (h : ifFits s a n body = .next t) :
    (256 < a + n ∧ t = s.raise .range) ∨ (a + n ≤ 256 ∧ body = .next t) := by
  by_cases hf : a + n ≤ 256
  · exact .inr ⟨hf, by rwa [ifFits_of_le s a n body hf] at h⟩
  · rw [ifFits_of_gt s a n body (by omega)] at h
    exact .inl ⟨by omega, by cases h; rfl⟩

theorem ifResolved_of_valid (s : State) (body : Result) (hs : s.srcValid = true) (hd : s.dstValid = true) :
    ifResolved s body = body := by
  simp [ifResolved, hs, hd]

theorem ifResolved_of_not_valid (s : State) (body : Result) (h : s.srcValid = false ∨ s.dstValid = false) :
    ifResolved s body = .next (s.raise .unresolved) := by
  rcases h with h | h <;> simp [ifResolved, h]

/-- Where the address check answers a next state, either UNRESOLVED was raised or both addresses are valid. -/
theorem ifResolved_next (s t : State) (body : Result) (h : ifResolved s body = .next t) :
    ((s.srcValid = false ∨ s.dstValid = false) ∧ t = s.raise .unresolved) ∨
      (s.srcValid = true ∧ s.dstValid = true ∧ body = .next t) := by
  by_cases hv : s.srcValid = true ∧ s.dstValid = true
  · rw [ifResolved_of_valid s body hv.1 hv.2] at h
    exact .inr ⟨hv.1, hv.2, h⟩
  · have hn : s.srcValid = false ∨ s.dstValid = false := by
      cases hs : s.srcValid <;> cases hd : s.dstValid <;> simp_all
    rw [ifResolved_of_not_valid s body hn] at h
    exact .inl ⟨hn, by cases h; rfl⟩

/-- Where a command that reads bytes answers a next state, it read a sequence of the range's length, byte for byte. -/
theorem withBytes_next (s t : State) (a n : Nat) (body : List Byte → Result) (h : withBytes s a n body = .next t) :
    ∃ bs, bs.length = n ∧ (∀ i, i < bs.length → s.buf.read? (a + i) = bs[i]?) ∧ body bs = .next t := by
  cases hr : s.buf.readRange a n with
  | none => simp [withBytes, hr] at h
  | some bs =>
    obtain ⟨hl, hi⟩ := (Memory.readRange_eq_some_iff n s.buf a bs).1 hr
    exact ⟨bs, hl, hi, by simpa [withBytes, hr] using h⟩

/-- A command that reads defined bytes goes on with them. -/
theorem withBytes_of_read (s : State) (a n : Nat) (body : List Byte → Result) (bs : List Byte) (hl : bs.length = n)
    (hi : ∀ i, i < bs.length → s.buf.read? (a + i) = bs[i]?) : withBytes s a n body = body bs := by
  have := (Memory.readRange_eq_some_iff n s.buf a bs).2 ⟨hl, hi⟩
  simp [withBytes, this]

/-- A command that reads an undefined byte faults (R80). -/
theorem withBytes_of_undefined (s : State) (a n : Nat) (body : List Byte → Result)
    (h : ∃ i, i < n ∧ s.buf.read? (a + i) = none) : withBytes s a n body = .fault .undefinedByte := by
  have := (Memory.readRange_eq_none_iff n s.buf a).2 h
  simp [withBytes, this]

/-- What BUF reads as after MemWrite (R14). -/
theorem State.writeBuf_read? (s : State) (a k : Nat) (bs : List Byte) :
    (s.writeBuf a bs).buf.read? k = if a ≤ k ∧ k < a + bs.length then bs[k - a]? else s.buf.read? k :=
  Memory.read?_writeRange bs s.buf a k

/-- The window offset of a bus address inside the window (R24). -/
@[simp] theorem windowOffset_base (off : Nat) (h : off < 0x200) : windowOffset (Config.base + off) = some off := by
  have h1 : Config.base ≤ Config.base + off ∧ Config.base + off < Config.base + Config.windowSize := by
    simp only [Config.windowSize]; omega
  rw [windowOffset, if_pos h1, Nat.add_sub_cancel_left]

/-- A HOST step at a window offset is the access there. -/
theorem hostTurn_base (x : BusAccess) (off : Nat) (s : State) (hx : x.addr = Config.base + off) (h : off < 0x200) :
    hostTurn x s = accessAt Config.hostBusEndian x off s := by
  simp [hostTurn, hx, windowOffset_base off h]

/-- Where a HOST step answers a next state, its address lies in the window. -/
theorem hostTurn_next (x : BusAccess) (s t : State) (h : hostTurn x s = .next t) :
    ∃ off, off < 0x200 ∧ x.addr = Config.base + off ∧ accessAt Config.hostBusEndian x off s = .next t := by
  simp only [hostTurn, windowOffset] at h
  split at h
  · rename_i off hw
    split at hw
    · rename_i hr
      simp only [Config.windowSize] at hr
      injection hw with hw
      exact ⟨off, by omega, by omega, h⟩
    · cases hw
  · cases h

/-- Where the ENGINE's step answers a next state, BUSY is 0 in it (R46). -/
theorem engineTurn_next (s t : State) (h : engineTurn s = .next t) : t.pending = none := by
  simp only [engineTurn] at h
  split at h
  · simp only [finishing] at h
    split at h <;> cases h
    rfl
  · rename_i hp
    cases h
    exact hp

/-- The machine's turn, by who moves. -/
theorem takeTurn_cases (s : State) :
    (s.agenda = [] ∧ takeTurn s = engineTurn s) ∨
    (∃ rest, s.agenda = .engine :: rest ∧ takeTurn s = engineTurn { s with agenda := rest }) ∨
    (∃ x rest, s.agenda = .host x :: rest ∧ takeTurn s = hostTurn x { s with agenda := rest }) ∨
    (∃ rest, s.agenda = .reset :: rest ∧ takeTurn s = .next (State.applyReset { s with agenda := rest })) := by
  rw [takeTurn]
  cases h : s.agenda with
  | nil => simp
  | cons turn rest => cases turn <;> simp

end Sys2Proof.Machine
end

