-- ==== Sys2Proof/Laws/Bus.lean ====
section
/-! SUPPORT. Everything a HOST step can do when it answers a next state, said once, and what a register write can do. -/

namespace Sys2Proof.Machine

/-- How a HOST step answers a next state (R26, R27, R75, R262). -/
inductive HostNext (s : State) : BusAccess → State → Prop where
  | readReg (off : Nat) (inSpace : off < 0x100) (aligned : off % 4 = 0)
      (noHazard : (s.window && readHazard (regAt off)) = false) :
      HostNext s (.read .word (Config.base + off)) { s with
        busData := some (Sys2Proof.Machine.readReg (regAt off) s)
        window := s.window && !closesWindow (regAt off) s
        lastPoll := lastPollAfter (regAt off) s }
  | writeReg (off : Nat) (value : Word) (inSpace : off < 0x100) (aligned : off % 4 = 0)
      (noHazard : (s.window && writeHazard (regAt off)) = false) :
      HostNext s (.write .word (Config.base + off) value) (Sys2Proof.Machine.writeReg (regAt off) value s)
  | readBuf (width : Width) (a : Nat) (bs : List Byte) (aligned : a % width.bytes = 0)
      (fits : a + width.bytes ≤ 256) (noHazard : s.window = false) (len : bs.length = width.bytes)
      (holds : ∀ i, i < bs.length → s.buf.read? (a + i) = bs[i]?) :
      HostNext s (.read width (Config.base + (0x100 + a)))
        { s with busData := some (valueOfBytes Config.hostBusEndian width bs) }
  | writeBuf (width : Width) (a : Nat) (value : Word) (aligned : a % width.bytes = 0)
      (fits : a + width.bytes ≤ 256) (noHazard : s.window = false) :
      HostNext s (.write width (Config.base + (0x100 + a)) value)
        (s.writeBuf a (bytesOfValue Config.hostBusEndian width value))

/-- A HOST step that answers a next state does so in one of the ways of `HostNext`. -/
theorem hostTurn_cases (x : BusAccess) (s t : State) (h : hostTurn x s = .next t) : HostNext s x t := by
  obtain ⟨off, _, hx, h'⟩ := hostTurn_next x s t h
  clear h
  rename' h' => h
  cases x with
  | read width addr =>
    simp only [BusAccess.addr] at hx
    subst hx
    simp only [accessAt] at h
    split at h
    · rename_i hlt
      simp only [readRegSpace] at h
      split at h
      · rename_i hc
        obtain ⟨rfl, h4⟩ := hc
        split at h
        · cases h
        · rename_i hz
          cases h
          exact .readReg off hlt h4 (by simpa using hz)
      · cases h
    · rename_i hge
      have hge : ¬ off < 256 := hge
      change readBufWindow _ width (off - 256) s = _ at h
      simp only [readBufWindow] at h
      split at h
      · rename_i hal
        have hal := of_decide_eq_true hal
        simp only [Config.bufSize] at hal
        split at h
        · cases h
        · rename_i hz
          obtain ⟨bs, len, holds, h⟩ := withBytes_next _ _ _ _ _ h
          cases h
          have := HostNext.readBuf width (off - 256) bs hal.1 hal.2 (by simpa using hz) len holds (s := s)
          rwa [show 0x100 + (off - 256) = off by omega] at this
      · cases h
  | write width addr value =>
    simp only [BusAccess.addr] at hx
    subst hx
    simp only [accessAt] at h
    split at h
    · rename_i hlt
      simp only [writeRegSpace] at h
      split at h
      · rename_i hc
        obtain ⟨rfl, h4⟩ := hc
        split at h
        · cases h
        · rename_i hz
          cases h
          exact .writeReg off value hlt h4 (by simpa using hz)
      · cases h
    · rename_i hge
      have hge : ¬ off < 256 := hge
      change writeBufWindow _ width (off - 256) value s = _ at h
      simp only [writeBufWindow] at h
      split at h
      · rename_i hal
        have hal := of_decide_eq_true hal
        simp only [Config.bufSize] at hal
        split at h
        · cases h
        · rename_i hz
          cases h
          have := HostNext.writeBuf width (off - 256) value hal.1 hal.2 (by simpa using hz) (s := s)
          rwa [show 0x100 + (off - 256) = off by omega] at this
      · cases h

/-- What a register write can do to the state (R27, R28, R30, R33 to R36). -/
theorem writeReg_cases (r : Reg) (w : Word) (s : State) :
    (r = .cmd ∧ s.pending ≠ none ∧ writeReg r w s = { s with drop := true }) ∨
    (r = .cmd ∧ s.pending = none ∧ writeReg r w s = s.accept w) ∨
    (r = .status ∧ w.getLsbD 10 = true ∧ writeReg r w s = { s with drop := false }) ∨
    (r = .srcAddr ∧ writeReg r w s = { s with srcAddr := w, srcValid := true }) ∨
    (r = .dstAddr ∧ writeReg r w s = { s with dstAddr := w, dstValid := true }) ∨
    (r = .srcPort ∧ writeReg r w s = { s with srcPort := w.setWidth 16 }) ∨
    (r = .ipId ∧ writeReg r w s = { s with ipId := w.setWidth 16 }) ∨
    writeReg r w s = s := by
  cases r with
  | cmd =>
    by_cases hp : s.pending = none
    · have hb : s.busy = false := by simp [State.busy, hp]
      exact .inr (.inl ⟨rfl, hp, by simp [writeReg, writeCmd, hb]⟩)
    · have hb : s.busy = true := by simp [State.busy, Option.isSome_iff_ne_none, hp]
      exact .inl ⟨rfl, hp, by simp [writeReg, writeCmd, hb]⟩
  | status =>
    by_cases hw : w.getLsbD 10 = true
    · exact .inr (.inr (.inl ⟨rfl, hw, if_pos hw⟩))
    · exact .inr (.inr (.inr (.inr (.inr (.inr (.inr (if_neg hw)))))))
  | srcAddr => exact .inr (.inr (.inr (.inl ⟨rfl, rfl⟩)))
  | dstAddr => exact .inr (.inr (.inr (.inr (.inl ⟨rfl, rfl⟩))))
  | srcPort => exact .inr (.inr (.inr (.inr (.inr (.inl ⟨rfl, rfl⟩)))))
  | ipId => exact .inr (.inr (.inr (.inr (.inr (.inr (.inl ⟨rfl, rfl⟩))))))
  | _ => exact .inr (.inr (.inr (.inr (.inr (.inr (.inr rfl))))))

/-- Which aligned offsets hold the writable registers (R25). -/
theorem regAt_eq_iff : ∀ off, off < 0x100 → off % 4 = 0 →
    (regAt off = .cmd ↔ off = 0x000) ∧ (regAt off = .status ↔ off = 0x004) ∧ (regAt off = .srcAddr ↔ off = 0x010) ∧
    (regAt off = .dstAddr ↔ off = 0x014) ∧ (regAt off = .srcPort ↔ off = 0x018) ∧ (regAt off = .ipId ↔ off = 0x01C) := by
  decide +kernel

/-- A HOST write to BUF puts as many bytes there as the access is wide (R75). -/
@[simp] theorem bytesOfValue_length (e : Endian) (width : Width) (value : Word) :
    (bytesOfValue e width value).length = width.bytes := by
  cases width <;> cases e <;> rfl

end Sys2Proof.Machine
end

