-- ==== Sys2Proof/Laws/Decode.lean ====
section
/-! SUPPORT. The fields of a command word as quotients of its value (R101, R102), the value of a packed word, and what the
must-be-zero test of the decoder answers (R104). -/

namespace Sys2Proof

theorem fieldOp_toNat (w : Word) : (fieldOp w).toNat = w.toNat / 2 ^ 28 % 2 ^ 4 := by
  rw [fieldOp, BitVec.extractLsb'_toNat, Nat.shiftRight_eq_div_pow]

theorem fieldA_eq (w : Word) : fieldA w = w.toNat / 2 ^ 20 % 2 ^ 8 := by
  rw [fieldA, BitVec.extractLsb'_toNat, Nat.shiftRight_eq_div_pow]

theorem fieldB_eq (w : Word) : fieldB w = w.toNat / 2 ^ 12 % 2 ^ 8 := by
  rw [fieldB, BitVec.extractLsb'_toNat, Nat.shiftRight_eq_div_pow]

theorem fieldRsv_eq (w : Word) : fieldRsv w = w.toNat / 2 ^ 9 % 2 ^ 3 := by
  rw [fieldRsv, BitVec.extractLsb'_toNat, Nat.shiftRight_eq_div_pow]

theorem fieldL_eq (w : Word) : fieldL w = w.toNat % 2 ^ 9 := by
  rw [fieldL, BitVec.extractLsb'_toNat, Nat.shiftRight_eq_div_pow, Nat.pow_zero, Nat.div_one]

theorem fieldRest_toNat (w : Word) : (fieldRest w).toNat = w.toNat % 2 ^ 28 := by
  rw [fieldRest, BitVec.extractLsb'_toNat, Nat.shiftRight_eq_div_pow, Nat.pow_zero, Nat.div_one]

theorem pack_toNat (op a b l : Nat) (ho : op < 16) (ha : a < 256) (hb : b < 256) (hl : l < 512) :
    (pack op a b l).toNat = 2 ^ 28 * op + 2 ^ 20 * a + 2 ^ 12 * b + l := by
  simp only [pack, BitVec.toNat_ofNat]
  exact Nat.mod_eq_of_lt (by omega)

/-- A packed word's fields are what was packed, with RSV zero (R101). -/
theorem pack_fields (op a b l : Nat) (ho : op < 16) (ha : a < 256) (hb : b < 256) (hl : l < 512) :
    (fieldOp (pack op a b l)).toNat = op ∧ fieldA (pack op a b l) = a ∧ fieldB (pack op a b l) = b
      ∧ fieldRsv (pack op a b l) = 0 ∧ fieldL (pack op a b l) = l := by
  rw [fieldOp_toNat, fieldA_eq, fieldB_eq, fieldRsv_eq, fieldL_eq, pack_toNat op a b l ho ha hb hl]
  omega

/-- The must-be-zero test answers the command exactly when every tested field is zero. -/
theorem requireZero_eq_instr_iff (w : Word) (fs : List Nat) (i j : Instr) :
    requireZero w fs i = .instr j ↔ (∀ f ∈ fs, f = 0) ∧ i = j := by
  rw [requireZero]
  by_cases h : fs.all (· == 0) = true
  · rw [if_pos h]
    simp only [List.all_eq_true, beq_iff_eq] at h
    simpa using fun _ => h
  · rw [if_neg h]
    simp only [List.all_eq_true, beq_iff_eq] at h
    simp [h]

end Sys2Proof
end

