-- ==== Sys2Proof/Laws/Exec.lean ====
section
/-! SUPPORT. Everything a command can do when it answers a next state, said once: it raised an error, or its rule's effect happened
under the checks its rule makes (R100). -/

namespace Sys2Proof.Machine

/-- How a command answers a next state. -/
inductive ExecNext (s : State) : Instr → State → Prop where
  | raised (i : Instr) (e : ErrorCode) : ExecNext s i (s.raise e)
  | nop : ExecNext s .nop s.succeed
  | csum (a l : Nat) (bs : List Byte) (fits : a + l ≤ 256) (len : bs.length = l)
      (holds : ∀ i, i < bs.length → s.buf.read? (a + i) = bs[i]?) :
      ExecNext s (.csum a l) (s.setChecksum bs).succeed
  | pcsum (a l : Nat) (bs : List Byte) (fits : a + l ≤ 256) (src : s.srcValid = true) (dst : s.dstValid = true)
      (min : 8 ≤ l) (len : bs.length = l) (holds : ∀ i, i < bs.length → s.buf.read? (a + i) = bs[i]?) :
      ExecNext s (.pcsum a l) (s.setChecksum (pseudoHeader s (BitVec.ofNat 16 l) ++ bs)).succeed
  | patch (a : Nat) (fits : a + 2 ≤ 256) : ExecNext s (.patch a) (s.writeBuf a (be16 s.result)).succeed
  | serIp (a : Nat) (fits : a + 20 ≤ 256) (src : s.srcValid = true) (dst : s.dstValid = true) :
      ExecNext s (.serIp a) (s.writeBuf a (ipHeader s 0x0000)).succeed
  | serUdp (a : Nat) (fits : a + 8 ≤ 256) : ExecNext s (.serUdp a) (s.writeBuf a (udpHeader s 0x0000)).succeed
  | serPsh (a : Nat) (fits : a + 12 ≤ 256) (src : s.srcValid = true) (dst : s.dstValid = true) :
      ExecNext s (.serPsh a) (s.writeBuf a (pseudoHeader s (BitVec.ofNat 16 udpLen))).succeed
  | serNtp (a : Nat) (fits : a + 48 ≤ 256) : ExecNext s (.serNtp a) (s.writeBuf a ntpRequest).succeed
  | assemble (a : Nat) (fits : a + 76 ≤ 256) (src : s.srcValid = true) (dst : s.dstValid = true) :
      ExecNext s (.assemble a)
        ((s.setSums (frameUdpCsum s) (frameIpCsum s) (csumAcc (frame s 0x0000))).writeBuf a (frame s (frameIpCsum s))).succeed
  | decodeNtp (a : Nat) (h t : List Byte) (fits : a + 48 ≤ 256) (lenH : h.length = 16) (lenT : t.length = 8)
      (holdsH : ∀ i, i < h.length → s.buf.read? (a + i) = h[i]?)
      (holdsT : ∀ i, i < t.length → s.buf.read? (a + 40 + i) = t[i]?) :
      ExecNext s (.decodeNtp a) (s.setNtp h t).succeed
  | copy (a b l : Nat) (bs : List Byte) (fitsA : a + l ≤ 256) (fitsB : b + l ≤ 256) (len : bs.length = l)
      (holds : ∀ i, i < bs.length → s.buf.read? (b + i) = bs[i]?) :
      ExecNext s (.copy a b l) (s.writeBuf a bs).succeed
  | zero (a l : Nat) (fits : a + l ≤ 256) : ExecNext s (.zero a l) (s.writeBuf a (zeros l)).succeed

@[simp] theorem be16_length (v : Half) : (be16 v).length = 2 := rfl
@[simp] theorem be32_length (v : Word) : (be32 v).length = 4 := rfl
@[simp] theorem zeros_length (n : Nat) : (zeros n).length = n := List.length_replicate
@[simp] theorem pseudoHeader_length (s : State) (n : Half) : (pseudoHeader s n).length = 12 := rfl
@[simp] theorem ipHeader_length (s : State) (c : Half) : (ipHeader s c).length = 20 := rfl
@[simp] theorem udpHeader_length (s : State) (c : Half) : (udpHeader s c).length = 8 := rfl
@[simp] theorem ntpRequest_length : ntpRequest.length = 48 := rfl
@[simp] theorem frame_length (s : State) (c : Half) : (frame s c).length = 76 := rfl

/-- A command that answers a next state does so in one of the ways of `ExecNext`. -/
theorem exec_next (i : Instr) (s t : State) (h : exec i s = .next t) : ExecNext s i t := by
  cases i with
  | nop => cases h; exact .nop
  | csum a l =>
    rcases ifFits_next _ _ _ _ _ h with ⟨_, rfl⟩ | ⟨fits, h⟩
    · exact .raised _ _
    obtain ⟨bs, len, holds, h⟩ := withBytes_next _ _ _ _ _ h
    cases h
    exact .csum a l bs fits len holds
  | pcsum a l =>
    rcases ifFits_next _ _ _ _ _ h with ⟨_, rfl⟩ | ⟨fits, h⟩
    · exact .raised _ _
    rcases ifResolved_next _ _ _ h with ⟨_, rfl⟩ | ⟨src, dst, h⟩
    · exact .raised _ _
    split at h
    · cases h; exact .raised _ _
    · rename_i min
      obtain ⟨_, _, _, h⟩ := withBytes_next _ _ _ _ _ h
      split at h
      · obtain ⟨bs, len, holds, h⟩ := withBytes_next _ _ _ _ _ h
        cases h
        exact .pcsum a l bs fits src dst (by omega) len holds
      · cases h; exact .raised _ _
  | patch a =>
    rcases ifFits_next _ _ _ _ _ h with ⟨_, rfl⟩ | ⟨fits, h⟩
    · exact .raised _ _
    · cases h; exact .patch a fits
  | serIp a =>
    rcases ifFits_next _ _ _ _ _ h with ⟨_, rfl⟩ | ⟨fits, h⟩
    · exact .raised _ _
    rcases ifResolved_next _ _ _ h with ⟨_, rfl⟩ | ⟨src, dst, h⟩
    · exact .raised _ _
    · cases h; exact .serIp a fits src dst
  | serUdp a =>
    rcases ifFits_next _ _ _ _ _ h with ⟨_, rfl⟩ | ⟨fits, h⟩
    · exact .raised _ _
    · cases h; exact .serUdp a fits
  | serPsh a =>
    rcases ifFits_next _ _ _ _ _ h with ⟨_, rfl⟩ | ⟨fits, h⟩
    · exact .raised _ _
    rcases ifResolved_next _ _ _ h with ⟨_, rfl⟩ | ⟨src, dst, h⟩
    · exact .raised _ _
    · cases h; exact .serPsh a fits src dst
  | serNtp a =>
    rcases ifFits_next _ _ _ _ _ h with ⟨_, rfl⟩ | ⟨fits, h⟩
    · exact .raised _ _
    · cases h; exact .serNtp a fits
  | assemble a =>
    rcases ifFits_next _ _ _ _ _ h with ⟨_, rfl⟩ | ⟨fits, h⟩
    · exact .raised _ _
    rcases ifResolved_next _ _ _ h with ⟨_, rfl⟩ | ⟨src, dst, h⟩
    · exact .raised _ _
    · cases h; exact .assemble a fits src dst
  | decodeNtp a =>
    rcases ifFits_next _ _ _ _ _ h with ⟨_, rfl⟩ | ⟨fits, h⟩
    · exact .raised _ _
    obtain ⟨hs, lenH, holdsH, h⟩ := withBytes_next _ _ _ _ _ h
    obtain ⟨ts, lenT, holdsT, h⟩ := withBytes_next _ _ _ _ _ h
    cases h
    exact .decodeNtp a hs ts fits lenH lenT holdsH holdsT
  | copy a b l =>
    rcases ifFits_next _ _ _ _ _ h with ⟨_, rfl⟩ | ⟨fitsA, h⟩
    · exact .raised _ _
    rcases ifFits_next _ _ _ _ _ h with ⟨_, rfl⟩ | ⟨fitsB, h⟩
    · exact .raised _ _
    obtain ⟨bs, len, holds, h⟩ := withBytes_next _ _ _ _ _ h
    cases h
    exact .copy a b l bs fitsA fitsB len holds
  | zero a l =>
    rcases ifFits_next _ _ _ _ _ h with ⟨_, rfl⟩ | ⟨fits, h⟩
    · exact .raised _ _
    · cases h; exact .zero a l fits
  | reserved op rest => cases h; exact .raised _ _

end Sys2Proof.Machine
end

