-- ==== Sys2Proof/Laws/PerInstr.lean ====
section
/-! SUPPORT. Per-instruction laws. Family EncodeFields: the encoded word of a well-formed command carries its operands and zero
in every other field (R101, R104, R108). -/

namespace Sys2Proof.Laws.EncodeFields

/-- The fields A, B, L a command encodes, an unused one being zero (R103, R108); none for the reserved opcodes, which have no
fields (R105). -/
def operands : Instr → Option (Nat × Nat × Nat)
  | .nop => some (0, 0, 0)
  | .csum a l => some (a, 0, l)
  | .pcsum a l => some (a, 0, l)
  | .patch a => some (a, 0, 0)
  | .serIp a => some (a, 0, 0)
  | .serUdp a => some (a, 0, 0)
  | .serPsh a => some (a, 0, 0)
  | .serNtp a => some (a, 0, 0)
  | .assemble a => some (a, 0, 0)
  | .decodeNtp a => some (a, 0, 0)
  | .copy a b l => some (a, b, l)
  | .zero a l => some (a, 0, l)
  | .reserved _ _ => none

/-- The encoded word's fields read back as the command's operands, with RSV zero. -/
def Statement (i : Instr) : Prop :=
  i.wf = true → ∀ a b l, operands i = some (a, b, l) →
    fieldA (encode i) = a ∧ fieldB (encode i) = b ∧ fieldRsv (encode i) = 0 ∧ fieldL (encode i) = l

theorem of_pack {i : Instr} {op a b l : Nat} (he : encode i = pack op a b l) (ho : operands i = some (a, b, l))
    (hop : op < 16) (hb : i.wf = true → a < 256 ∧ b < 256 ∧ l < 512) : Statement i := by
  intro hw a' b' l' h
  rw [ho] at h
  simp only [Option.some.injEq, Prod.mk.injEq] at h
  obtain ⟨rfl, rfl, rfl⟩ := h
  obtain ⟨h1, h2, h3⟩ := hb hw
  rw [he]
  exact (pack_fields op a b l hop h1 h2 h3).2

theorem nop : Statement .nop :=
  of_pack (op := 0x0) (a := 0) (b := 0) (l := 0) rfl rfl (by omega) (by omega)

theorem csum (a l : Nat) : Statement (.csum a l) :=
  of_pack (op := 0x1) (a := a) (b := 0) (l := l) rfl rfl (by omega) (by simp [Instr.wf, offsetOk, lengthOk])

theorem pcsum (a l : Nat) : Statement (.pcsum a l) :=
  of_pack (op := 0x2) (a := a) (b := 0) (l := l) rfl rfl (by omega) (by simp [Instr.wf, offsetOk, lengthOk])

theorem patch (a : Nat) : Statement (.patch a) :=
  of_pack (op := 0x3) (a := a) (b := 0) (l := 0) rfl rfl (by omega) (by simp [Instr.wf, offsetOk])

theorem serIp (a : Nat) : Statement (.serIp a) :=
  of_pack (op := 0x4) (a := a) (b := 0) (l := 0) rfl rfl (by omega) (by simp [Instr.wf, offsetOk])

theorem serUdp (a : Nat) : Statement (.serUdp a) :=
  of_pack (op := 0x5) (a := a) (b := 0) (l := 0) rfl rfl (by omega) (by simp [Instr.wf, offsetOk])

theorem serPsh (a : Nat) : Statement (.serPsh a) :=
  of_pack (op := 0x6) (a := a) (b := 0) (l := 0) rfl rfl (by omega) (by simp [Instr.wf, offsetOk])

theorem serNtp (a : Nat) : Statement (.serNtp a) :=
  of_pack (op := 0x7) (a := a) (b := 0) (l := 0) rfl rfl (by omega) (by simp [Instr.wf, offsetOk])

theorem assemble (a : Nat) : Statement (.assemble a) :=
  of_pack (op := 0x8) (a := a) (b := 0) (l := 0) rfl rfl (by omega) (by simp [Instr.wf, offsetOk])

theorem decodeNtp (a : Nat) : Statement (.decodeNtp a) :=
  of_pack (op := 0x9) (a := a) (b := 0) (l := 0) rfl rfl (by omega) (by simp [Instr.wf, offsetOk])

theorem copy (a b l : Nat) : Statement (.copy a b l) :=
  of_pack (op := 0xA) (a := a) (b := b) (l := l) rfl rfl (by omega) (by simp [Instr.wf, offsetOk, lengthOk, and_assoc])

theorem zero (a l : Nat) : Statement (.zero a l) :=
  of_pack (op := 0xB) (a := a) (b := 0) (l := l) rfl rfl (by omega) (by simp [Instr.wf, offsetOk, lengthOk])

theorem reserved (op : BitVec 4) (rest : BitVec 28) : Statement (.reserved op rest) := by
  intro _ a b l h
  simp [operands] at h

end Sys2Proof.Laws.EncodeFields
end

