-- ==== Sys2Proof/Laws/Run.lean ====
section
/-! SUPPORT. When a run has ended, and what one more step of it does. -/

namespace Sys2Proof.Machine

/-- The HOST program has executed its last step where no HOST access is to come. -/
theorem State.hostDone_iff (s : State) : s.hostDone = true ↔ ∀ x, .host x ∉ s.agenda := by
  rw [State.hostDone, List.all_eq_true]
  refine ⟨fun h x hx => by simpa [isHostTurn] using h _ hx, fun h turn ht => ?_⟩
  cases turn with
  | host x => exact absurd ht (h x)
  | engine | reset => rfl

/-- The end of a run (R269). -/
theorem State.runEnded_iff (s : State) : s.runEnded = true ↔ HasEnded s := by
  simp [State.runEnded, State.hostDone_iff, HasEnded]

/-- A run that has ended is observed as it stands. -/
theorem runProgram_of_ended (n : Nat) (s : State) (h : s.runEnded = true) : runProgram n s = .ended (observe s none) := by
  cases n <;> simp [runProgram, h]

/-- A run that has not ended goes on with one step, or its fault is recorded. -/
theorem runProgram_succ (n : Nat) (s : State) (h : s.runEnded = false) :
    runProgram (n + 1) s = match step s with
      | .next t => runProgram n t
      | .fault r => .stopped (observe s (some r))
      | .refused why => .refused why := by
  rw [runProgram, h]
  rfl

/-- No step is taken in a run of length 0. -/
theorem runsTo_zero (s u : State) : RunsTo 0 s u ↔ s = u := by
  exact ⟨fun h => by injection h, fun h => by rw [h]; rfl⟩

/-- A longer run goes through the next state of its first step. -/
theorem runsTo_succ (k : Nat) (s u : State) : RunsTo (k + 1) s u ↔ ∃ t, step s = .next t ∧ RunsTo k t u := by
  have hc : core.step s = step s := rfl
  simp only [RunsTo, Host.Core.run, hc]
  cases step s <;> simp

/-- Only a read of STATUS sets the BUSY bit last read (log 26). -/
theorem lastPollAfter_eq (r : Reg) (s : State) :
    lastPollAfter r s = if r = .status then some s.busy else s.lastPoll := by
  cases r <;> rfl

end Sys2Proof.Machine
end

