-- ==== Sys2Proof/Laws/Step.lean ====
section
/-! SUPPORT. What one step is, by who moves. -/

namespace Sys2Proof.Machine

/-- A step in which the HOST moves is its bus access (R73). -/
theorem step_host (s : State) (x : BusAccess) (rest : List Turn) (h : s.agenda = .host x :: rest) :
    step s = hostTurn x { s with agenda := rest } := by
  simp [step, takeTurn, h]

/-- A step in which the ENGINE's turn comes first is the ENGINE's (R46). -/
theorem step_engine (s : State) (rest : List Turn) (h : s.agenda = .engine :: rest) :
    step s = engineTurn { s with agenda := rest } := by
  simp [step, takeTurn, h]

/-- With no turn left the ENGINE moves (log 2). -/
theorem step_nil (s : State) (h : s.agenda = []) : step s = engineTurn s := by
  simp [step, takeTurn, h]

/-- A step in which reset is asserted (R260). -/
theorem step_reset (s : State) (rest : List Turn) (h : s.agenda = .reset :: rest) :
    step s = .next (State.applyReset { s with agenda := rest }) := by
  simp [step, takeTurn, h]

/-- A HOST read at a window offset. -/
theorem hostTurn_read (width : Width) (off : Nat) (s : State) (h : off < 0x200) :
    hostTurn (.read width (Config.base + off)) s =
      accessAt Config.hostBusEndian (.read width (Config.base + off)) off s :=
  hostTurn_base _ off s rfl h

/-- A HOST write at a window offset. -/
theorem hostTurn_write (width : Width) (off : Nat) (value : Word) (s : State) (h : off < 0x200) :
    hostTurn (.write width (Config.base + off) value) s =
      accessAt Config.hostBusEndian (.write width (Config.base + off) value) off s :=
  hostTurn_base _ off s rfl h

/-- The step that runs a placed command is the ENGINE's, and executes its word (R46, R100). -/
theorem step_withFetchWord (s : State) (nbits w : Nat) :
    step (s.withFetchWord nbits w) =
      finishing (executeWord (BitVec.ofNat 32 (w % 2 ^ nbits)) (s.accept (BitVec.ofNat 32 (w % 2 ^ nbits)))) := by
  simp [State.withFetchWord, withCommand, step, takeTurn, engineTurn, State.accept]

end Sys2Proof.Machine
end

