-- ==== Sys2Proof/Tests/Slice0.lean ====
section
/-! SUPPORT. The model's own tests, each on vectors of 95_test_vectors.md or on words written out from R101 and R104, and a named
witness for the hypotheses of every statement that has some. -/

namespace Sys2Proof.Tests

open Sys2Proof.Machine

/-! ### Small states -/

/-- BUF with the bytes from offset a on defined, and nothing else. -/
def bytesAt (a : Nat) (bs : List Byte) : Memory := Memory.writeRange [] a bs

/-- BUF with every byte 0x00 (L2.7.9). -/
def zeroBuf : Memory := (List.range 256).map fun k => (k, 0x00)

/-- The vector inputs of L2: 192.0.2.1, 203.0.113.1, SRC_PORT 0x3039, IP_ID 0xD431, both addresses valid. -/
def vec (buf : Memory) : State :=
  { State.reset with
    srcAddr := 0xC0000201, dstAddr := 0xCB007101, srcValid := true, dstValid := true
    srcPort := 0x3039, ipId := 0xD431, buf := buf }

/-- A state with the given coming turns, busy-hazard interval and pending command. -/
def turns (window : Bool) (pending : Option Word) (ts : List Turn) : State :=
  { vec [] with window := window, pending := pending, agenda := ts }

/-- What a test looks at in the state a command answers. -/
def look {α : Type} (i : Instr) (s : State) (f : State → α) : Option α := (nextState? (exec i s)).map f

/-! ### Well-formedness: each check refuses its ill-formed term (R101, R105) -/

theorem test_wf_refuses_offset_256 :
    (Instr.patch 256).wf = false ∧ (Instr.csum 256 0).wf = false ∧ (Instr.copy 0 256 0).wf = false ∧
    (Instr.patch 255).wf = true := by decide

theorem test_wf_refuses_length_512 :
    (Instr.csum 0 512).wf = false ∧ (Instr.copy 0 0 512).wf = false ∧ (Instr.zero 0 512).wf = false ∧
    (Instr.zero 0 511).wf = true := by decide

theorem test_wf_refuses_assigned_opcode_as_reserved :
    (Instr.reserved 0xB 0).wf = false ∧ (Instr.reserved 0xC 0).wf = true := by decide

/-! ### Decoding: one word per constructor, written out from R101 and R104 (L2.8 and the words of L2.2 to L2.7) -/

theorem test_decode_nop : decode 0x00000000 = .instr .nop := by decide
theorem test_decode_csum : decode 0x1000004C = .instr (.csum 0 76) ∧ decode 0x15000044 = .instr (.csum 0x50 68) := by decide
theorem test_decode_pcsum : decode 0x21400038 = .instr (.pcsum 0x14 56) := by decide
theorem test_decode_patch : decode 0x30A00000 = .instr (.patch 0x0A) ∧ decode 0x36200000 = .instr (.patch 0x62) := by decide
theorem test_decode_serIp : decode 0x4EC00000 = .instr (.serIp 0xEC) := by decide
theorem test_decode_serUdp : decode 0x55C00000 = .instr (.serUdp 0x5C) := by decide
theorem test_decode_serPsh : decode 0x65000000 = .instr (.serPsh 0x50) := by decide
theorem test_decode_serNtp : decode 0x76400000 = .instr (.serNtp 0x64) := by decide
theorem test_decode_assemble : decode 0x8B400000 = .instr (.assemble 0xB4) := by decide
theorem test_decode_decodeNtp : decode 0x9A000000 = .instr (.decodeNtp 0xA0) := by decide
theorem test_decode_copy : decode 0xA145C038 = .instr (.copy 0x14 0x5C 56) := by decide
theorem test_decode_zero : decode 0xB1A00002 = .instr (.zero 0x1A 2) := by decide

theorem test_decode_reserved :
    [0xC0000000, 0xD1234567, 0xE0000000, 0xFFFFFFFF].map decode =
      [.instr (.reserved 0xC 0), .instr (.reserved 0xD 0x1234567), .instr (.reserved 0xE 0),
        .instr (.reserved 0xF 0xFFFFFFF)] := by decide

/-- L2.8, L2.2.9, L2.2.10, L2.4.6, L2.5.9, L2.7.7, L2.7.12: a nonzero must-be-zero field is ILLEGAL. -/
theorem test_decode_must_be_zero :
    [0x00100000, 0x10000E00, 0x10001002, 0x10000202, 0x3FF00001, 0x80000001, 0xA0000200, 0x00000001].map decode =
      [.illegal (.mustBeZero 0), .illegal (.mustBeZero 1), .illegal (.mustBeZero 1), .illegal (.mustBeZero 1),
        .illegal (.mustBeZero 3), .illegal (.mustBeZero 8), .illegal (.mustBeZero 0xA), .illegal (.mustBeZero 0)] := by
  decide

theorem test_encode_spec_words :
    [Instr.nop, .csum 0x50 68, .pcsum 0x14 56, .patch 0x62, .serIp 0, .serUdp 0x5C, .serPsh 0x50, .serNtp 0x64, .assemble 0,
      .decodeNtp 0xA0, .copy 0x14 0x5C 56, .zero 0x1A 2, .reserved 0xD 0x1234567].map encode =
      [0x00000000, 0x15000044, 0x21400038, 0x36200000, 0x40000000, 0x55C00000, 0x65000000, 0x76400000, 0x80000000,
        0x9A000000, 0xA145C038, 0xB1A00002, 0xD1234567] := by decide

theorem test_decodeTableWord :
    decodeTableWord 32 0xA145C038 = some (.copy 0x14 0x5C 56) ∧ decodeTableWord 32 0x10000E00 = none := by decide

/-! ### The checksum function (L2.1) -/

theorem test_checksum_empty : csumAcc [] = 0 ∧ checksum [] = 0xFFFF := by decide

theorem test_checksum_odd_length : csumAcc [0x00, 0x01, 0xF2] = 0x0000F201 ∧ checksum [0x00, 0x01, 0xF2] = 0x0DFE := by decide

theorem test_checksum_two_folds :
    csumAcc [0xFF, 0xFF, 0xFF, 0xFF, 0x00, 0x01] = 0x0001FFFF ∧ fold 0x0001FFFF = 0x0001 ∧
    checksum [0xFF, 0xFF, 0xFF, 0xFF, 0x00, 0x01] = 0xFFFE := by decide

theorem test_checksum_even_length :
    csumAcc [0x00, 0x01, 0xF2, 0x03, 0xF4, 0xF5, 0xF6, 0xF7] = 0x0002DDF0 ∧ fold 0x0002DDF0 = 0xDDF2 ∧
    checksum [0x00, 0x01, 0xF2, 0x03, 0xF4, 0xF5, 0xF6, 0xF7] = 0x220D := by decide

/-- L2.1.13 and L2.1.14: the law of R134 needs an even field position. -/
theorem test_checksum_self_verify :
    checksum [0x12, 0x34, 0x97, 0xCB, 0x56] = 0x0000 ∧ checksum [0x12, 0x97, 0xCB, 0x34, 0x56] = 0xCC33 := by decide

/-- R163: byte 0 of the IP header. -/
theorem test_ip_version_ihl : ipVersionIhl = 0x45 := by decide

/-! ### The commands, on the vectors of L2.2 to L2.7 -/

/-- L2.7.11. -/
theorem test_nop_clears_err :
    look .nop { vec [] with err := true, errcode := 2, z := true } (fun t => (t.err, t.errcode, t.z)) =
      some (false, 0, true) := by decide

/-- L2.2.5: odd offset and odd length. -/
theorem test_csum_odd :
    look (.csum 1 3) (vec (bytesAt 1 [0x00, 0x01, 0xF2])) (fun t => (t.acc, t.result, t.z, t.err)) =
      some (0x0000F201, 0x0DFE, false, false) := by decide

/-- L2.2.3 and L2.2.2: the zero result sets Z, and an empty range at offset 255 reads nothing. -/
theorem test_csum_zero_result_and_empty_range :
    look (.csum 0x10 2) (vec (bytesAt 0x10 [0xFF, 0xFF])) (fun t => (t.acc, t.result, t.z)) = some (0xFFFF, 0, true) ∧
    look (.csum 0xFF 0) (vec []) (fun t => (t.acc, t.result, t.z)) = some (0, 0xFFFF, false) := by decide

/-- L2.3.3: an odd length. -/
theorem test_pcsum_odd :
    look (.pcsum 0 9) (vec (bytesAt 0 [0x30, 0x39, 0x00, 0x7B, 0x00, 0x09, 0x00, 0x00, 0xAB]))
      (fun t => (t.acc, t.result, t.z)) = some (0x0002D9D9, 0x2624, false) := by decide

/-- L2.3.6, L2.3.8, L2.3.9: LENGTH reads no byte, UNRESOLVED, and RANGE before UNRESOLVED. -/
theorem test_pcsum_errors :
    look (.pcsum 0 7) (vec []) (fun t => t.errcode) = some 4 ∧
    look (.pcsum 0x14 56) { vec [] with srcValid := false } (fun t => t.errcode) = some 3 ∧
    look (.pcsum 0xF0 32) { vec [] with srcValid := false } (fun t => t.errcode) = some 2 := by decide

/-- L2.4.1. -/
theorem test_patch :
    look (.patch 0x1A) { vec [] with result := 0xB5C6 } (fun t => t.buf) = some [(0x1A, 0xB5), (0x1B, 0xC6)] := by decide

/-- L2.4.4, L2.4.5. -/
theorem test_patch_range :
    look (.patch 0xFE) (vec []) (fun t => t.errcode) = some 0 ∧ look (.patch 0xFF) (vec []) (fun t => t.errcode) = some 2 := by
  decide

/-- L2.5.10. -/
theorem test_serIp :
    look (.serIp 0) (vec []) (fun t => t.buf.map Prod.snd) =
      some [0x45, 0x00, 0x00, 0x4C, 0xD4, 0x31, 0x00, 0x00, 0xFF, 0x11, 0x00, 0x00, 0xC0, 0x00, 0x02, 0x01, 0xCB, 0x00, 0x71,
        0x01] := by decide

/-- L2.5.16, L2.5.17. -/
theorem test_serIp_errors :
    look (.serIp 0xED) (vec []) (fun t => t.errcode) = some 2 ∧
    look (.serIp 0) { vec [] with srcValid := false } (fun t => (t.errcode, t.buf)) = some (3, []) := by decide

/-- L2.5.11: no address is needed. -/
theorem test_serUdp :
    look (.serUdp 0x5C) { vec [] with srcValid := false } (fun t => t.buf) =
      some [(0x5C, 0x30), (0x5D, 0x39), (0x5E, 0x00), (0x5F, 0x7B), (0x60, 0x00), (0x61, 0x38), (0x62, 0x00), (0x63, 0x00)] := by
  decide

/-- L2.5.12. -/
theorem test_serPsh :
    look (.serPsh 0x50) (vec []) (fun t => t.buf.map Prod.snd) =
      some [0xC0, 0x00, 0x02, 0x01, 0xCB, 0x00, 0x71, 0x01, 0x00, 0x11, 0x00, 0x38] := by decide

/-- L2.5.13, L2.5.14. -/
theorem test_serNtp :
    look (.serNtp 0x64) (vec []) (fun t => (t.buf.map Prod.snd, t.buf.head?.map Prod.fst)) =
      some (0x1B :: List.replicate 47 0x00, some 0x64) ∧
    look (.serNtp 0xD1) (vec []) (fun t => t.errcode) = some 2 := by decide +kernel

/-- L2.5.1. -/
theorem test_assemble :
    look (.assemble 0) (vec []) (fun t => (t.buf.map Prod.snd, t.udpCsum, t.ipCsum, t.result, t.acc)) =
      some ([0x45, 0x00, 0x00, 0x4C, 0xD4, 0x31, 0x00, 0x00, 0xFF, 0x11, 0xE7, 0xB8, 0xC0, 0x00, 0x02, 0x01, 0xCB, 0x00, 0x71,
        0x01, 0x30, 0x39, 0x00, 0x7B, 0x00, 0x38, 0xB5, 0xC6, 0x1B] ++ List.replicate 47 0x00,
        0xB5C6, 0xE7B8, 0xE7B8, 0x00051842) := by decide +kernel

/-- L2.5.5: a UDP checksum that computes to 0x0000 is written as it is (R138). -/
theorem test_assemble_zero_udp_checksum :
    look (.assemble 0xB4) { vec [] with srcPort := 0xE5FF } (fun t => (t.udpCsum, t.ipCsum, t.acc, t.buf.read? (0xB4 + 26))) =
      some (0x0000, 0xE7B8, 0x00051842, some 0x00) := by decide +kernel

/-- L2.6.1. Bytes 16 to 39 are undefined (L2.6.7). -/
theorem test_decodeNtp :
    look (.decodeNtp 0xA0)
      (vec (bytesAt 0xA0 [0x1C, 0x02, 0x06, 0xEC, 0, 0, 0, 0x10, 0, 0, 0, 0x20, 0x47, 0x50, 0x53, 0]
        ++ bytesAt 0xC8 [0xE9, 0x3C, 0x7F, 0x00, 0x80, 0, 0, 0]))
      (fun t => [t.ntpW0, t.ntpUnpack, t.ntpW1, t.ntpW2, t.ntpW3, t.ntpTxSecs, t.ntpTxFrac, t.unixSecs]) =
      some [0x1C0206EC, 0x00000304, 0x00000010, 0x00000020, 0x47505300, 0xE93C7F00, 0x80000000, 0x65920080] := by
  decide +kernel

/-- L2.6.4: one second before the Unix epoch. -/
theorem test_decodeNtp_borrow :
    look (.decodeNtp 0)
      (vec (bytesAt 0 ([0x24, 0x01] ++ List.replicate 14 0) ++ bytesAt 40 [0x83, 0xAA, 0x7E, 0x7F, 0xFF, 0xFF, 0xFF, 0xFF]))
      (fun t => (t.ntpUnpack, t.unixSecs, t.borrow)) = some (0x00000404, 0xFFFFFFFF, true) := by decide +kernel

/-- L2.7.1, L2.7.2: overlapping moves both ways. -/
theorem test_copy_overlap :
    look (.copy 1 0 3) (vec (bytesAt 0 [1, 2, 3, 4])) (fun t => t.buf.map Prod.snd) = some [1, 1, 2, 3] ∧
    look (.copy 0 1 3) (vec (bytesAt 0 [1, 2, 3, 4])) (fun t => t.buf.map Prod.snd) = some [2, 3, 4, 4] := by decide

/-- L2.7.5, L2.7.6. -/
theorem test_copy_range :
    look (.copy 0xF0 0 32) (vec []) (fun t => t.errcode) = some 2 ∧ look (.copy 0 0xF0 32) (vec []) (fun t => t.errcode) = some 2 := by
  decide

/-- L2.7.8, L2.7.10. -/
theorem test_zero :
    look (.zero 0x1A 2) (vec (bytesAt 0x1A [0xB5, 0xC6])) (fun t => t.buf) = some [(0x1A, 0), (0x1B, 0)] ∧
    look (.zero 1 256) (vec []) (fun t => t.errcode) = some 2 := by decide

/-- P4 step 3. -/
theorem test_reserved :
    look (.reserved 0xC 0) (vec []) statusWord = some 0x00000312 := by decide

/-- L2.2.11: a command that reads an undefined byte stops the model. -/
theorem test_undefined_byte : faultOf? (exec (.csum 0 2) (vec (bytesAt 0 [0x00]))) = some .undefinedByte := by decide

/-! ### The step -/

/-- The placed command runs as the first one after reset, and BUSY is 0 after it (R46). -/
theorem test_step_runs_placed_command :
    (nextState? (step (State.reset.withFetchWord 32 0xB0000004))).map (fun t => (t.buf, t.pending, t.lastCmd)) =
      some ([(0, 0), (1, 0), (2, 0), (3, 0)], none, 0xB0000004) := by decide

/-- P4 step 1: ASSEMBLE after reset raises UNRESOLVED. -/
theorem test_step_unresolved_after_reset :
    (nextState? (step (State.reset.withFetchWord 32 0x80000000))).map statusWord = some 0x00000032 := by decide

/-- R269: a run whose last STATUS read returned BUSY = 0 has ended, and STATUS and LAST_CMD are observed (P4's end). -/
theorem test_run_ended :
    (match runProgram 3 { turns false none [.engine] with lastPoll := some false } with
      | .ended o => some (o.registers.take 2, o.buf, o.fault)
      | _ => none) = some ([(.cmd, 0), (.status, 0x00000300)], [], none) := by decide

/-- R236, R269: a run that faults is stopped with its fault and BUF recorded; one whose STATUS has not been read goes on. -/
theorem test_run_stopped :
    (match runProgram 2 { turns true (some 0x10000002) [.engine] with buf := bytesAt 0 [7] } with
      | .stopped o => some (o.buf, o.fault)
      | _ => none) = some ([(0, 7)], some .undefinedByte) ∧
    (match runProgram 2 (turns false none []) with
      | .running s => some s.lastPoll
      | _ => none) = some none := by decide

/-! ### HOST accesses, by window offset (L2.9) -/

/-- A HOST read at a window offset. -/
def rd (e : Endian) (width : Width) (off : Nat) (s : State) : Result := accessAt e (.read width 0) off s

/-- A HOST write at a window offset. -/
def wr (e : Endian) (width : Width) (off : Nat) (v : Word) (s : State) : Result := accessAt e (.write width 0 v) off s

/-- L2.9.1, L2.9.2. -/
theorem test_host_write_buf :
    (nextState? (wr .big .word 0x100 0x01020304 (vec []))).map (fun t => t.buf) = some [(0, 1), (1, 2), (2, 3), (3, 4)] ∧
    (nextState? (wr .little .word 0x100 0x01020304 (vec []))).map (fun t => t.buf) = some [(0, 4), (1, 3), (2, 2), (3, 1)] := by
  decide

/-- L2.9.3 with L2.9.1's bytes, and the 2- and 4-byte reads of R75. -/
theorem test_host_read_buf :
    (nextState? (rd .little .byte 0x102 (vec (bytesAt 0 [1, 2, 3, 4])))).map (fun t => t.busData) = some (some 3) ∧
    (nextState? (rd .little .half 0x102 (vec (bytesAt 0 [1, 2, 3, 4])))).map (fun t => t.busData) = some (some 0x0403) ∧
    (nextState? (rd .big .word 0x100 (vec (bytesAt 0 [1, 2, 3, 4])))).map (fun t => t.busData) = some (some 0x01020304) := by
  decide

/-- L2.9.4, L2.9.5, L2.9.11. -/
theorem test_host_faults :
    faultOf? (rd .big .half 0x101 (vec [])) = some .unsupportedAccess ∧
    faultOf? (rd .big .byte 0x004 (vec [])) = some .unsupportedAccess ∧
    faultOf? (rd .big .byte 0x100 State.reset) = some .undefinedByte := by decide

/-- L2.9.6, L2.9.7, L2.9.10. -/
theorem test_host_register_reads :
    (nextState? (rd .big .word 0x048 (vec []))).map (fun t => t.busData) = some (some 0) ∧
    (nextState? (wr .big .word 0x018 0xFFFF3039 { vec [] with srcPort := 0 })).map (readReg .srcPort) = some 0x00003039 ∧
    (nextState? (rd .big .word 0x004 State.reset)).map (fun t => t.busData) = some (some 0) := by decide

/-- L2.9.8, L2.9.9. -/
theorem test_host_register_writes :
    (nextState? (wr .big .word 0x008 0x1234 (vec []))).map (fun t => t.result) = some 0 ∧
    (nextState? (wr .big .word 0x004 0x00000403 { vec [] with drop := true, err := true })).map
      (fun t => (t.drop, t.err)) = some (false, true) := by decide

/-- L2.9.12. -/
theorem test_host_hazard :
    ((nextState? (wr .big .word 0x000 0x1000004C (vec []))).bind fun t => faultOf? (rd .big .word 0x008 t)) =
      some .hazard := by decide

/-- P5: the second CMD write is dropped if the ENGINE has not stepped, and accepted if it has. -/
theorem test_dropped_command_race :
    ((nextState? (wr .big .word 0 0 (vec []))).bind fun t => (nextState? (wr .big .word 0 0 t)).map (fun u => u.drop)) =
      some true ∧
    ((nextState? (wr .big .word 0 0 (vec []))).bind fun t => (nextState? (engineTurn t)).bind fun u =>
      (nextState? (wr .big .word 0 0 u)).map (fun v => (v.drop, v.busy))) = some (false, true) := by decide

/-! ### Witnesses: encoding and the ENGINE's step -/

theorem witness_DecodeOfEncode :
    [Instr.nop, .csum 255 511, .pcsum 255 511, .patch 255, .serIp 255, .serUdp 255, .serPsh 255, .serNtp 255, .assemble 255,
      .decodeNtp 255, .copy 255 255 511, .zero 255 511, .reserved 0xC 0, .reserved 0xF 0xFFFFFFF].all Instr.wf = true := by
  decide

theorem witness_EncodeOfDecode :
    decode 0xAFFFF1FF = .instr (.copy 255 255 511) ∧ decode 0xC0000000 = .instr (.reserved 0xC 0) := by decide

theorem witness_PackIsShiftedFields : (15 : Nat) < 16 ∧ (255 : Nat) < 256 ∧ (511 : Nat) < 512 := by decide

theorem witness_UnassignedWordsRaiseIllegal :
    (12 ≤ (0xC0000000 : Word).toNat / 2 ^ 28) ∧ ((0xB0000200 : Word) &&& mustBeZeroMask ((0xB0000200 : Word).toNat / 2 ^ 28) ≠ 0) ∧
    ((0xBFF001FF : Word).toNat / 2 ^ 28 < 12 ∧ (0xBFF001FF : Word) &&& mustBeZeroMask ((0xBFF001FF : Word).toNat / 2 ^ 28) = 0) := by
  decide

theorem witness_EngineStepRunsCommand :
    ((turns true (some 0x00000000) []).agenda = [] ∧ decode 0x00000000 = .instr .nop) ∧
    ((turns true (some 0x80000000) [.engine, .reset]).agenda = .engine :: [.reset] ∧ decode 0x80000000 = .instr (.assemble 0)) ∧
    decode 0x00000001 = .illegal (.mustBeZero 0) ∧ (turns true none [.engine]).pending = none := by
  exact ⟨⟨rfl, by decide⟩, ⟨rfl, by decide⟩, by decide, rfl⟩

theorem witness_NetworkOrderBytes : 2 + 2 ≤ [(1 : Byte), 2, 3, 4].length ∧ 0 + 4 ≤ [(1 : Byte), 2, 3, 4].length := by decide

theorem witness_FoldEndsInTwoTurns : 2 ≤ 2 ∧ 2 ≤ 7 := by decide

/-- An even and an odd total length. -/
theorem witness_PatchedChecksumVerifies :
    ([0x12, 0x34] : List Byte).length % 2 = 0 ∧ ([0x12, 0x34] : List Byte).length + 2 + ([0x56] : List Byte).length ≤ 131074 := by
  decide

theorem witness_AccumulatorNeverWraps :
    (List.replicate 268 (0xFF : Byte)).length ≤ 268 ∧ (List.replicate 131074 (0xFF : Byte)).length ≤ 131074 :=
  ⟨Nat.le_of_eq List.length_replicate, Nat.le_of_eq List.length_replicate⟩

theorem witness_ByteSwapSymmetry : ([(0x00, 0x01), (0xF2, 0x03)] : List (Byte × Byte)).length ≤ 65537 := by decide

/-- A row's opcode, a word of that opcode, and the row's mask and match: the word passes, and with bit 11 set it does not. -/
def rowOk (row : Nat × Word × Word × Word) : Bool :=
  decide (row.2.1.toNat / 2 ^ 28 = row.1) && row.2.1 &&& row.2.2.1 == row.2.2.2 &&
    decide ((row.2.1 ||| 0x00000800).toNat / 2 ^ 28 = row.1) && (row.2.1 ||| 0x00000800) &&& row.2.2.1 != row.2.2.2

/-- The hypotheses of RowDecodes, for each row of R104. -/
theorem witness_RowDecodes :
    [(0x0, (0x00000000 : Word), (0xFFFFFFFF : Word), (0x00000000 : Word)), (0x1, 0x1FF001FF, 0xF00FFE00, 0x10000000),
      (0x2, 0x2FF001FF, 0xF00FFE00, 0x20000000), (0x3, 0x3FF00000, 0xF00FFFFF, 0x30000000),
      (0x4, 0x4FF00000, 0xF00FFFFF, 0x40000000), (0x5, 0x5FF00000, 0xF00FFFFF, 0x50000000),
      (0x6, 0x6FF00000, 0xF00FFFFF, 0x60000000), (0x7, 0x7FF00000, 0xF00FFFFF, 0x70000000),
      (0x8, 0x8FF00000, 0xF00FFFFF, 0x80000000), (0x9, 0x9FF00000, 0xF00FFFFF, 0x90000000),
      (0xA, 0xAFFFF1FF, 0xF0000E00, 0xA0000000), (0xB, 0xBFF001FF, 0xF00FFE00, 0xB0000000)].all rowOk = true := by decide

/-! ### Witnesses: the commands -/

theorem witness_CsumWritesChecksumOfRange :
    256 < 255 + 2 ∧
    (254 + 2 ≤ 256 ∧ HasUndefined (vec (bytesAt 254 [0x00])).buf 254 2) ∧
    (254 + 2 ≤ 256 ∧ [(0x00 : Byte), 0x01].length = 2 ∧ HoldsAt (vec (bytesAt 254 [0x00, 0x01])).buf 254 [0x00, 0x01]) := by
  decide +kernel

theorem witness_PcsumWritesPseudoHeaderChecksum :
    256 < 249 + 8 ∧
    (248 + 8 ≤ 256 ∧ { vec [] with srcValid := false }.srcValid = false) ∧
    (0 + 7 ≤ 256 ∧ (vec []).srcValid = true ∧ (vec []).dstValid = true ∧ 7 < 8) ∧
    (248 + 8 ≤ 256 ∧ 8 ≤ 8 ∧ HoldsAt (vec (bytesAt 252 [0x00, 0x09])).buf (248 + 4) [0x00, 0x09] ∧
      256 * (0x00 : Byte).toNat + (0x09 : Byte).toNat ≠ 8) ∧
    HasUndefined (vec (bytesAt 252 [0x00])).buf (248 + 4) 2 ∧
    (HoldsAt (vec (bytesAt 252 [0x00, 0x08])).buf (248 + 4) [0x00, 0x08] ∧ 256 * (0x00 : Byte).toNat + (0x08 : Byte).toNat = 8 ∧
      HasUndefined (vec (bytesAt 252 [0x00, 0x08])).buf 248 8) ∧
    (HoldsAt (vec (bytesAt 248 [0x30, 0x39, 0x00, 0x7B, 0x00, 0x08, 0x00, 0x00])).buf 248
        [0x30, 0x39, 0x00, 0x7B, 0x00, 0x08, 0x00, 0x00] ∧
      netVal (([0x30, 0x39, 0x00, 0x7B, 0x00, 0x08, 0x00, 0x00].drop 4).take 2) = 8) := by decide +kernel

theorem witness_PatchWritesResult : 256 < 255 + 2 ∧ 254 + 2 ≤ 256 := by decide

theorem witness_SerIpWritesHeader :
    256 < 237 + 20 ∧ (236 + 20 ≤ 256 ∧ { vec [] with dstValid := false }.dstValid = false) ∧
    (236 + 20 ≤ 256 ∧ (vec []).srcValid = true ∧ (vec []).dstValid = true) := by decide

theorem witness_SerUdpWritesHeader : 256 < 249 + 8 ∧ 248 + 8 ≤ 256 := by decide

theorem witness_SerPshWritesPseudoHeader :
    256 < 245 + 12 ∧ (244 + 12 ≤ 256 ∧ { vec [] with srcValid := false }.srcValid = false) ∧
    (244 + 12 ≤ 256 ∧ (vec []).srcValid = true ∧ (vec []).dstValid = true) := by decide

theorem witness_SerNtpWritesRequest : 256 < 209 + 48 ∧ 208 + 48 ≤ 256 := by decide

/-- L2.5.1's checksums meet the equations that name them. -/
theorem witness_AssembleWritesFrame :
    256 < 181 + 76 ∧ (180 + 76 ≤ 256 ∧ { vec [] with dstValid := false }.dstValid = false) ∧
    (180 + 76 ≤ 256 ∧ (vec []).srcValid = true ∧ (vec []).dstValid = true ∧
      (0xB5C6 : Half) = checksum (wirePseudo (vec []) 56 ++ wireUdp (vec []) 0x0000 ++ wireNtp) ∧
      (0xE7B8 : Half) = checksum (wireIp (vec []) 0x0000 ++ wireUdp (vec []) 0xB5C6 ++ wireNtp)) := by decide +kernel

theorem witness_DecodeNtpWritesFields :
    256 < 209 + 48 ∧ (208 + 48 ≤ 256 ∧ HasUndefined (vec []).buf 208 16) ∧ HasUndefined (vec []).buf (208 + 40) 8 ∧
    (HoldsAt (vec (bytesAt 208 (0x1C :: List.replicate 15 0) ++ bytesAt 248 (0xE9 :: List.replicate 7 0))).buf 208
        (0x1C :: List.replicate 15 0) ∧
      HoldsAt (vec (bytesAt 208 (0x1C :: List.replicate 15 0) ++ bytesAt 248 (0xE9 :: List.replicate 7 0))).buf (208 + 40)
        (0xE9 :: List.replicate 7 0) ∧
      (0x1C : Nat) = netVal (([0x1C, 0] : List Byte).take 1)) := by decide +kernel

theorem witness_CopyMovesBytes :
    256 < 255 + 2 ∧ (254 + 2 ≤ 256 ∧ 0 + 2 ≤ 256 ∧ HasUndefined (vec (bytesAt 0 [1])).buf 0 2) ∧
    (254 + 2 ≤ 256 ∧ 0 + 2 ≤ 256 ∧ [(1 : Byte), 2].length = 2 ∧ HoldsAt (vec (bytesAt 0 [1, 2])).buf 0 [1, 2]) := by decide

theorem witness_ZeroClearsBytes : 256 < 1 + 256 ∧ 0 + 256 ≤ 256 := by decide

theorem witness_ReservedRaisesIllegal : 12 ≤ (0xC0000000 : Word).toNat / 2 ^ 28 := by decide

theorem witness_AssembledFrameVerifies : 180 + 76 ≤ 256 ∧ (vec []).srcValid = true ∧ (vec []).dstValid = true := by decide

/-- Two states that agree on the four registers and on nothing they need not. -/
theorem witness_AssembleIsIdempotent :
    0 + 76 ≤ 256 ∧ 180 + 76 ≤ 256 ∧ (vec []).srcValid = true ∧
    { vec (bytesAt 0 [1]) with result := 7, z := true }.dstValid = true ∧
    { vec (bytesAt 0 [1]) with result := 7, z := true }.srcAddr = (vec []).srcAddr ∧
    { vec (bytesAt 0 [1]) with result := 7, z := true }.ipId = (vec []).ipId := by decide

theorem witness_PrimitivesBuildTheFrame :
    (0 + 76 ≤ 256 ∧ 76 + 68 ≤ 256 ∧ 0 + 76 ≤ 76) ∧ (180 + 76 ≤ 256 ∧ 112 + 68 ≤ 180) ∧ (vec []).srcValid = true := by decide

/-! ### Witnesses: all commands -/

theorem witness_FailedCommandIsPrecise :
    look (.patch 255) (vec []) (fun t => t.err) = some true ∧
    (nextState? (executeWord 0x00000001 (vec []))).map (fun t => t.err) = some true := by decide

theorem witness_ErrorOrder :
    decode 0x8B500001 = .illegal (.mustBeZero 8) ∧ (Instr.reserved 0xC 0).isReserved = true ∧
    ((Instr.copy 0 255 2).isReserved = false ∧ ∃ r ∈ (Instr.copy 0 255 2).ranges, 256 < r.1 + r.2) ∧
    ((∀ r ∈ (Instr.serIp 236).ranges, r.1 + r.2 ≤ 256) ∧ (Instr.serIp 236).needsAddresses = true ∧
      { vec [] with srcValid := false }.srcValid = false) ∧
    ((∀ r ∈ (Instr.pcsum 0 7).ranges, r.1 + r.2 ≤ 256) ∧ (vec []).srcValid = true ∧ (vec []).dstValid = true ∧
      look (.pcsum 0 7) (vec []) (fun t => t.errcode) = some 4) := by decide

theorem witness_FlagWriters :
    look (.csum 0x10 2) (vec (bytesAt 0x10 [0xFF, 0xFF])) (fun t => (t.z, t.err)) = some (true, false) ∧ (vec []).z = false ∧
    look (.decodeNtp 0) (vec (bytesAt 0 (List.replicate 48 0))) (fun t => t.borrow) = some true ∧ (vec []).borrow = false := by
  decide +kernel

theorem witness_RegisterWriters :
    look (.assemble 0) (vec []) (fun t => (t.result, t.udpCsum)) = some (0xE7B8, 0xB5C6) ∧ (vec []).result = 0 ∧
    (vec []).udpCsum = 0 ∧
    look (.decodeNtp 0) (vec (bytesAt 0 (List.replicate 48 1))) (fun t => t.ntpW0) = some 0x01010101 ∧ (vec []).ntpW0 = 0 := by
  decide +kernel

theorem witness_MemoryFrame :
    look (.patch 254) (vec []) (fun t => t.err) = some false ∧ look (.patch 255) (vec []) (fun t => t.err) = some true := by decide

theorem witness_CommandsCompleteOnDefinedBuf :
    ∀ k, k < 256 → (vec (zeroBuf)).buf.read? k ≠ none := by decide +kernel

/-- Two memories that differ in byte 20 of the message: a defined byte in one, an undefined one in the other. -/
theorem witness_DecodeNtpReadsOnly24Bytes :
    (∀ k, k < 16 ∨ (40 ≤ k ∧ k < 48) →
      (bytesAt 0 (List.replicate 16 0) ++ bytesAt 40 (List.replicate 8 0)).read? (0 + k) =
        (vec (bytesAt 0 (List.replicate 48 0))).buf.read? (0 + k)) ∧
    look (.decodeNtp 0) (vec (bytesAt 0 (List.replicate 48 0))) (fun t => t.err) = some false ∧
    faultOf? (exec (.decodeNtp 0) (vec [])) = some .undefinedByte := by
  refine ⟨?_, by decide +kernel, by decide +kernel⟩
  have h : ∀ k, k < 48 → k < 16 ∨ (40 ≤ k ∧ k < 48) →
      (bytesAt 0 (List.replicate 16 0) ++ bytesAt 40 (List.replicate 8 0)).read? (0 + k) =
        (vec (bytesAt 0 (List.replicate 48 0))).buf.read? (0 + k) := by decide +kernel
  exact fun k hk => h k (by omega) hk

/-! ### Witnesses: reset and HOST accesses -/

theorem witness_ResetInput : ∃ (s : State) (rest : List Turn), s.agenda = .reset :: rest ∧ s.pending ≠ none :=
  ⟨turns true (some 0x80000000) [.reset, .engine], _, rfl, by decide⟩

theorem witness_CmdRegister :
    (∃ (s : State) (rest : List Turn) (w : Word),
      s.agenda = .host (.write .word (Config.base + 0x000) w) :: rest ∧ s.pending = none) ∧
    (∃ (s : State) (rest : List Turn) (w : Word),
      s.agenda = .host (.write .word (Config.base + 0x000) w) :: rest ∧ s.pending ≠ none) ∧
    (∃ (s : State) (rest : List Turn), s.agenda = .host (.read .word (Config.base + 0x000)) :: rest) :=
  ⟨⟨turns false none [.host (.write .word (Config.base + 0x000) 0xC0000000)], [], 0xC0000000, rfl, rfl⟩,
    ⟨turns true (some 0) [.host (.write .word (Config.base + 0x000) 0)], [], 0, rfl, by decide⟩,
    ⟨turns true (some 0) [.host (.read .word (Config.base + 0x000))], [], rfl⟩⟩

theorem witness_StatusReadReturnsEveryField :
    ∃ (s : State) (rest : List Turn),
      s.agenda = .host (.read .word (Config.base + 0x004)) :: rest ∧ s.window = true ∧ s.pending ≠ none :=
  ⟨turns true (some 0) [.host (.read .word (Config.base + 0x004))], [], rfl, rfl, by decide⟩

theorem witness_StatusWriteClearsDrop :
    (∃ (s : State) (rest : List Turn) (w : Word),
      s.agenda = .host (.write .word (Config.base + 0x004) w) :: rest ∧ w.getLsbD 10 = true) ∧
    (∃ (s : State) (rest : List Turn) (w : Word),
      s.agenda = .host (.write .word (Config.base + 0x004) w) :: rest ∧ w.getLsbD 10 = false) :=
  ⟨⟨turns true (some 0) [.host (.write .word (Config.base + 0x004) 0x400)], [], 0x400, rfl, by decide⟩,
    ⟨turns false none [.host (.write .word (Config.base + 0x004) 0xFFFFFBFF)], [], 0xFFFFFBFF, rfl, by decide⟩⟩

theorem witness_AddressRegisters :
    (∃ (s : State) (rest : List Turn) (w : Word),
      s.agenda = .host (.write .word (Config.base + 0x010) w) :: rest ∧ s.window = false) ∧
    (∃ (s : State) (rest : List Turn) (w : Word),
      s.agenda = .host (.write .word (Config.base + 0x014) w) :: rest ∧ s.window = false) ∧
    (∃ (s : State) (rest : List Turn), s.agenda = .host (.read .word (Config.base + 0x010)) :: rest) ∧
    (∃ (s : State) (rest : List Turn), s.agenda = .host (.read .word (Config.base + 0x014)) :: rest) :=
  ⟨⟨turns false none [.host (.write .word (Config.base + 0x010) 0)], [], 0, rfl, rfl⟩,
    ⟨turns false none [.host (.write .word (Config.base + 0x014) 0)], [], 0, rfl, rfl⟩,
    ⟨turns true (some 0) [.host (.read .word (Config.base + 0x010))], [], rfl⟩,
    ⟨turns true (some 0) [.host (.read .word (Config.base + 0x014))], [], rfl⟩⟩

theorem witness_PortAndIdRegisters :
    (∃ (s : State) (rest : List Turn) (w : Word),
      s.agenda = .host (.write .word (Config.base + 0x018) w) :: rest ∧ s.window = false) ∧
    (∃ (s : State) (rest : List Turn) (w : Word),
      s.agenda = .host (.write .word (Config.base + 0x01C) w) :: rest ∧ s.window = false) ∧
    (∃ (s : State) (rest : List Turn), s.agenda = .host (.read .word (Config.base + 0x018)) :: rest) ∧
    (∃ (s : State) (rest : List Turn), s.agenda = .host (.read .word (Config.base + 0x01C)) :: rest) :=
  ⟨⟨turns false none [.host (.write .word (Config.base + 0x018) 0xFFFF3039)], [], 0xFFFF3039, rfl, rfl⟩,
    ⟨turns false none [.host (.write .word (Config.base + 0x01C) 0xFFFFFFFF)], [], 0xFFFFFFFF, rfl, rfl⟩,
    ⟨turns true (some 0) [.host (.read .word (Config.base + 0x018))], [], rfl⟩,
    ⟨turns true (some 0) [.host (.read .word (Config.base + 0x01C))], [], rfl⟩⟩

/-- The first and the last offset of each clause. -/
theorem witness_ReservedAndReadOnlyOffsets :
    (∀ off ∈ [0x048, 0x0FC], off % 4 = 0 ∧ off < 0x100 ∧ 0x048 ≤ off ∧
      (turns true none [.host (.read .word (Config.base + off))]).agenda = [.host (.read .word (Config.base + off))]) ∧
    (∀ off ∈ [0x008, 0x00C, 0x020, 0x0FC], off % 4 = 0 ∧ off < 0x100 ∧ (off = 0x008 ∨ off = 0x00C ∨ 0x020 ≤ off) ∧
      (turns false none [.host (.write .word (Config.base + off) 5)]).agenda = [.host (.write .word (Config.base + off) 5)] ∧
      (turns false none [.host (.write .word (Config.base + off) 5)]).window = false) ∧
    (∀ off ∈ [0x018, 0x01C], off % 4 = 0 ∧ off < 0x100 ∧
      (turns false none [.host (.write .word (Config.base + off) 5)]).agenda = [.host (.write .word (Config.base + off) 5)] ∧
      (turns false none [.host (.read .word (Config.base + off))]).agenda = [.host (.read .word (Config.base + off))]) := by
  refine ⟨?_, ?_, ?_⟩
  · exact fun off h => ⟨(by decide : ∀ off ∈ [0x048, 0x0FC], off % 4 = 0) off h,
      (by decide : ∀ off ∈ [0x048, 0x0FC], off < 0x100) off h, (by decide : ∀ off ∈ [0x048, 0x0FC], 0x048 ≤ off) off h, rfl⟩
  · exact fun off h => ⟨(by decide : ∀ off ∈ [0x008, 0x00C, 0x020, 0x0FC], off % 4 = 0) off h,
      (by decide : ∀ off ∈ [0x008, 0x00C, 0x020, 0x0FC], off < 0x100) off h,
      (by decide : ∀ off ∈ [0x008, 0x00C, 0x020, 0x0FC], off = 0x008 ∨ off = 0x00C ∨ 0x020 ≤ off) off h, rfl, rfl⟩
  · exact fun off h => ⟨(by decide : ∀ off ∈ [0x018, 0x01C], off % 4 = 0) off h,
      (by decide : ∀ off ∈ [0x018, 0x01C], off < 0x100) off h, rfl, rfl⟩

theorem witness_ResultRegistersRead :
    ∃ (s : State) (rest : List Turn), s.window = false ∧
      (0x044, s.unixSecs) ∈ [(0x008, s.result.setWidth 32), (0x044, s.unixSecs)] ∧
      s.agenda = .host (.read .word (Config.base + 0x044)) :: rest :=
  ⟨turns false none [.host (.read .word (Config.base + 0x044))], [], rfl, by simp, rfl⟩

theorem witness_UnsupportedAccessFaults :
    ((0x0FC < 0x100 ∧ (Width.byte ≠ .word)) ∧ (0x001 < 0x100 ∧ 0x001 % 4 ≠ 0)) ∧
    (0x100 ≤ 0x101 ∧ 0x101 < 0x200 ∧ (0x101 - 0x100) % Width.half.bytes ≠ 0) ∧
    (0x100 ≤ 0x1FE ∧ 0x1FE < 0x200 ∧ (0x1FE - 0x100) % Width.word.bytes ≠ 0) ∧
    (∃ (s : State) (rest : List Turn), s.agenda = .host (.read .half (Config.base + 0x101)) :: rest) ∧
    (∃ (s : State) (rest : List Turn), s.agenda = .host (.write .byte (Config.base + 0x0FC) 0) :: rest) :=
  ⟨by decide, by decide, by decide, ⟨turns false none [.host (.read .half (Config.base + 0x101))], [], rfl⟩,
    ⟨turns false none [.host (.write .byte (Config.base + 0x0FC) 0)], [], rfl⟩⟩

theorem witness_BufWindowAccess :
    (252 < 256 ∧ 252 % Width.word.bytes = 0 ∧ (0xFFFFFFFF : Word).toNat < 256 ^ Width.word.bytes) ∧
    (255 < 256 ∧ 255 % Width.byte.bytes = 0 ∧ (0xFF : Word).toNat < 256 ^ Width.byte.bytes) ∧
    (∃ (s : State) (rest : List Turn), s.window = false ∧
      s.agenda = .host (.write .word (Config.base + (0x100 + 252)) 0xFFFFFFFF) :: rest) ∧
    (∃ (s : State) (rest : List Turn), s.window = false ∧
      s.agenda = .host (.read .half (Config.base + (0x100 + 254))) :: rest ∧
      [(1 : Byte), 2].length = Width.half.bytes ∧ HoldsAt s.buf 254 [1, 2]) :=
  ⟨by decide, by decide, ⟨turns false none [.host (.write .word (Config.base + (0x100 + 252)) 0xFFFFFFFF)], [], rfl, rfl⟩,
    ⟨{ turns false none [.host (.read .half (Config.base + (0x100 + 254)))] with buf := bytesAt 254 [1, 2] }, [], rfl, rfl, rfl,
      by decide⟩⟩

theorem witness_MixedWidthAccesses :
    (∃ (s : State) (rest : List Turn), 252 < 256 ∧ 252 % 4 = 0 ∧ 3 < 4 ∧ s.window = false ∧
      s.agenda = .host (.write .word (Config.base + (0x100 + 252)) 0x01020304)
        :: .host (.read .byte (Config.base + (0x100 + (252 + 3)))) :: rest) ∧
    (∃ (s : State) (rest : List Turn), 254 < 256 ∧ 254 % Width.half.bytes = 0 ∧ s.window = false ∧
      s.agenda = .host (.read .half (Config.base + (0x100 + 254))) :: rest ∧ HasUndefined s.buf 254 Width.half.bytes) :=
  ⟨⟨turns false none [.host (.write .word (Config.base + (0x100 + 252)) 0x01020304),
      .host (.read .byte (Config.base + (0x100 + (252 + 3))))], [], by decide, by decide, by decide, rfl, rfl⟩,
    ⟨turns false none [.host (.read .half (Config.base + (0x100 + 254)))], [], by decide, by decide, rfl, rfl,
      ⟨0, by decide, rfl⟩⟩⟩

/-- A boundary offset for each clause. -/
theorem witness_BusyHazard :
    (252 < 256 ∧ 252 % Width.word.bytes = 0 ∧ (0x01C : Nat) ∈ [0x010, 0x014, 0x018, 0x01C]) ∧
    (∀ off ∈ [0x000, 0x004, 0x010, 0x01C, 0x048, 0x0FC],
      off % 4 = 0 ∧ (off ≤ 0x004 ∨ (0x010 ≤ off ∧ off ≤ 0x01C) ∨ (0x048 ≤ off ∧ off < 0x100))) ∧
    (∃ (s : State) (rest : List Turn), s.window = true ∧ s.agenda = .host (.read .word (Config.base + (0x100 + 252))) :: rest) ∧
    (∃ (s : State) (rest : List Turn), s.window = true ∧ s.agenda = .host (.write .word (Config.base + 0x01C) 0) :: rest) ∧
    (∃ (s : State) (rest : List Turn), s.window = true ∧ s.agenda = .host (.read .word (Config.base + 0x044)) :: rest) ∧
    (∃ (s : State) (rest : List Turn), s.window = true ∧ s.pending = none ∧
      s.agenda = .host (.read .word (Config.base + 0x004)) :: rest) ∧
    (∃ (s : State) (rest : List Turn), s.window = true ∧ s.agenda = .host (.write .word (Config.base + 0x004) 0) :: rest) ∧
    (∃ (s : State) (rest : List Turn), s.pending = none ∧ s.agenda = .host (.write .word (Config.base + 0x000) 0) :: rest) ∧
    (∀ off ∈ [0x008, 0x00C, 0x020, 0x0FC], off % 4 = 0 ∧ off < 0x100 ∧ (off = 0x008 ∨ off = 0x00C ∨ 0x020 ≤ off)) ∧
    (∃ (s : State) (rest : List Turn), s.window = true ∧ s.agenda = .host (.write .word (Config.base + 0x0FC) 0) :: rest) :=
  ⟨by decide, by decide, ⟨turns true (some 0) [.host (.read .word (Config.base + (0x100 + 252)))], [], rfl, rfl⟩,
    ⟨turns true (some 0) [.host (.write .word (Config.base + 0x01C) 0)], [], rfl, rfl⟩,
    ⟨turns true none [.host (.read .word (Config.base + 0x044))], [], rfl, rfl⟩,
    ⟨turns true none [.host (.read .word (Config.base + 0x004))], [], rfl, rfl, rfl⟩,
    ⟨turns true none [.host (.write .word (Config.base + 0x004) 0)], [], rfl, rfl⟩,
    ⟨turns false none [.host (.write .word (Config.base + 0x000) 0)], [], rfl, rfl⟩, by decide,
    ⟨turns true (some 0) [.host (.write .word (Config.base + 0x0FC) 0)], [], rfl, rfl⟩⟩

theorem witness_AccessOutsideWindowFaults :
    ∃ (s : State) (rest : List Turn) (x : BusAccess), s.agenda = .host x :: rest ∧ Config.base + 0x200 ≤ x.addr :=
  ⟨turns false none [.host (.read .word (Config.base + 0x200))], [], .read .word (Config.base + 0x200), rfl, Nat.le_refl _⟩

/-! ### Witnesses that take a HOST step -/

/-- A CMD write in a state with these fields is the step of R28. -/
theorem step_cmd_write (window : Bool) (pending : Option Word) (w : Word) (rest : List Turn) :
    step (turns window pending (.host (.write .word (Config.base + 0x000) w) :: rest)) =
      .next (writeCmd w (turns window pending rest)) := by
  rw [step_host _ _ _ rfl, hostTurn_write _ _ _ _ (by decide)]
  cases window <;> rfl

/-- A STATUS read is allowed in every state. -/
theorem step_status_read (window : Bool) (pending : Option Word) (rest : List Turn) :
    step (turns window pending (.host (.read .word (Config.base + 0x004)) :: rest)) =
      .next { turns window pending rest with
        busData := some (statusWord (turns window pending rest)), window := window && pending.isSome
        lastPoll := some pending.isSome } := by
  rw [step_host _ _ _ rfl, hostTurn_read _ _ _ (by decide)]
  cases window <;> cases pending <;> rfl

/-- A STATUS write is allowed in every state. -/
theorem step_status_write (s : State) (w : Word) (rest : List Turn) :
    step { s with agenda := .host (.write .word (Config.base + 0x004) w) :: rest } =
      .next (writeStatus w { s with agenda := rest }) := by
  rw [step_host _ _ _ rfl, hostTurn_write _ _ _ _ (by decide)]
  simp only [accessAt, writeRegSpace, regAt, writeHazard, Bool.and_false]
  rfl

/-- A SRC_ADDR write outside the busy-hazard interval. -/
theorem step_src_write (s : State) (w : Word) (rest : List Turn) (h : s.window = false) :
    step { s with agenda := .host (.write .word (Config.base + 0x010) w) :: rest } =
      .next { s with agenda := rest, srcAddr := w, srcValid := true } := by
  rw [step_host _ _ _ rfl, hostTurn_write _ _ _ _ (by decide)]
  simp only [accessAt, writeRegSpace, regAt, writeHazard, h, Bool.false_and]
  rfl

/-- A DST_ADDR write outside the busy-hazard interval. -/
theorem step_dst_write (s : State) (w : Word) (rest : List Turn) (h : s.window = false) :
    step { s with agenda := .host (.write .word (Config.base + 0x014) w) :: rest } =
      .next { s with agenda := rest, dstAddr := w, dstValid := true } := by
  rw [step_host _ _ _ rfl, hostTurn_write _ _ _ _ (by decide)]
  simp only [accessAt, writeRegSpace, regAt, writeHazard, h, Bool.false_and]
  rfl

theorem witness_HostReadsHaveNoSideEffect :
    ∃ (s t : State) (rest : List Turn), s.agenda = .host (.read .word (Config.base + 0x004)) :: rest ∧ step s = .next t :=
  ⟨_, _, _, rfl, step_status_read true none []⟩

theorem witness_RepeatedWriteIsOneWrite :
    (∃ (s t : State) (rest : List Turn) (w : Word), (0x010 : Nat) ∈ [0x004, 0x010, 0x014, 0x018, 0x01C] ∧
      s.agenda = .host (.write .word (Config.base + 0x010) w) :: .host (.write .word (Config.base + 0x010) w) :: rest ∧
      step s = .next t) ∧
    (∃ (s t : State) (rest : List Turn) (w : Word), 0x100 ≤ 0x1FF ∧ 0x1FF < 0x200 ∧
      s.agenda = .host (.write .byte (Config.base + 0x1FF) w) :: .host (.write .byte (Config.base + 0x1FF) w) :: rest ∧
      step s = .next t) := by
  refine ⟨⟨_, _, _, 5, by decide, rfl, step_src_write (vec []) 5 [.host (.write .word (Config.base + 0x010) 5)] rfl⟩, ?_⟩
  refine ⟨turns false none (.host (.write .byte (Config.base + 0x1FF) 7) :: .host (.write .byte (Config.base + 0x1FF) 7) :: []),
    (turns false none [.host (.write .byte (Config.base + 0x1FF) 7)]).writeBuf 255 [7], [], 7, by decide, by decide, rfl, ?_⟩
  rw [step_host _ _ _ rfl, hostTurn_write _ _ _ _ (by decide)]
  rfl

theorem witness_HazardIntervalEnds :
    (∃ s t : State, step s = .next t ∧ s.window = false ∧ t.window = true) ∧
    (∃ s t : State, step s = .next t ∧ s.window = true ∧ t.window = false ∧ s.pending = none) ∧
    (∃ s t : State, step s = .next t ∧ s.window = true ∧ t.window = false ∧ s.pending ≠ none) :=
  ⟨⟨_, _, step_cmd_write false none 0 [], rfl, rfl⟩, ⟨_, _, step_status_read true none [], rfl, rfl, rfl⟩,
    ⟨turns true (some 0) [.reset], _, rfl, rfl, rfl, by decide⟩⟩

theorem witness_LastCmdWriters :
    (∃ s t : State, step s = .next t ∧ t.lastCmd ≠ s.lastCmd ∧ s.pending = none) ∧
    (∃ s t : State, step s = .next t ∧ t.lastCmd ≠ s.lastCmd ∧ s.agenda = [.reset]) :=
  ⟨⟨_, _, step_cmd_write false none 0x1000004C [], by decide, rfl⟩,
    ⟨{ vec [] with lastCmd := 7, agenda := [.reset] }, _, rfl, by decide, rfl⟩⟩

theorem witness_StickyBitWriters :
    (∃ s t : State, step s = .next t ∧ s.drop = false ∧ t.drop = true) ∧
    (∃ s t : State, step s = .next t ∧ s.drop = true ∧ t.drop = false) ∧
    (∃ s t : State, step s = .next t ∧ s.srcValid = false ∧ t.srcValid = true) ∧
    (∃ s t : State, step s = .next t ∧ s.dstValid = false ∧ t.dstValid = true) ∧
    (∃ s t : State, step s = .next t ∧ s.srcValid = true ∧ t.srcValid = false ∧ s.dstValid = true ∧ t.dstValid = false) :=
  ⟨⟨_, _, step_cmd_write true (some 0) 0 [], rfl, rfl⟩,
    ⟨_, _, step_status_write { vec [] with drop := true } 0x400 [], rfl, rfl⟩,
    ⟨_, _, step_src_write { vec [] with srcValid := false } 1 [] rfl, rfl, rfl⟩,
    ⟨_, _, step_dst_write { vec [] with dstValid := false } 1 [] rfl, rfl, rfl⟩,
    ⟨turns false none [.reset], _, rfl, rfl, rfl, rfl, rfl⟩⟩

/-- ASSEMBLE pending in a state that meets the invariant; its step answers a next state. -/
theorem witness_StepKeepsInvariant :
    ({ turns true (some 0x80000000) [] with lastCmd := 0x80000000 }).Inv ∧
    ∃ t, step { turns true (some 0x80000000) [] with lastCmd := 0x80000000 } = .next t :=
  ⟨{ bufWf := by decide
     errIff := by decide
     errcodeLe := by decide
     pendingIsLast := fun w h => by cases h; rfl
     busyInWindow := fun _ => rfl
     srcInvalid := fun h => by cases h
     dstInvalid := fun h => by cases h
     unpackAgrees := by decide
     unixAgrees := .inr ⟨rfl, rfl, rfl⟩ }, _, rfl⟩

theorem witness_PolledCommandCompletes :
    ∃ (n : Nat) (s : State), (∀ k, k < 256 → s.buf.read? k ≠ none) ∧ s.pending ≠ none ∧
      s.agenda = List.replicate n (.host (.read .word (Config.base + 0x004))) :=
  ⟨2, { turns true (some 0x1000004C) (List.replicate 2 (.host (.read .word (Config.base + 0x004)))) with
      buf := zeroBuf }, witness_CommandsCompleteOnDefinedBuf, by decide, rfl⟩

/-- The state after a STATUS read that returned BUSY = 0, with no turn left. -/
def polled : State :=
  { turns false none [] with busData := some (statusWord (turns true none [])), lastPoll := some false }

/-- The clauses of RunEndsAndIsObserved: a NOP executed and STATUS read, which ends the run after two steps and no sooner; a CSUM that
faults at once; an idle run whose STATUS is never read; the last register; a STATUS read that changes what was last read. -/
theorem witness_RunEndsAndIsObserved :
    (∃ (s t : State) (o : Observation), RunsTo 2 s t ∧ HasEnded t ∧ (∀ j u, j < 2 → RunsTo j s u → ¬ HasEnded u) ∧
      runProgram 2 s = .ended o) ∧
    (∃ (s : State) (r : Fault) (o : Observation), RunsTo 0 s s ∧ step s = .fault r ∧
      (∀ j u, j ≤ 0 → RunsTo j s u → ¬ HasEnded u) ∧ runProgram 1 s = .stopped o) ∧
    (∃ s t : State, RunsTo 1 s t ∧ ∀ j u, j ≤ 1 → RunsTo j s u → ¬ HasEnded u) ∧
    (0x044 % 4 = 0 ∧ 0x044 < 0x048) ∧
    (∃ s t : State, step s = .next t ∧ t.lastPoll ≠ s.lastPoll) := by
  have h1 : step (turns true (some 0) [.engine, .host (.read .word (Config.base + 0x004))]) =
      .next (turns true none [.host (.read .word (Config.base + 0x004))]) := rfl
  have h2 : step (turns true none [.host (.read .word (Config.base + 0x004))]) = .next polled :=
    step_status_read true none []
  have h3 : step (turns false none []) = .next (turns false none []) := rfl
  have unread : ∀ window pending ts, ¬ HasEnded (turns window pending ts) := fun _ _ _ h => by cases h.2
  refine ⟨⟨turns true (some 0) [.engine, .host (.read .word (Config.base + 0x004))], polled, observe polled none, ?_, ?_, ?_, ?_⟩,
    ⟨turns true (some 0x10000002) [], .undefinedByte, observe (turns true (some 0x10000002) []) (some .undefinedByte),
      (runsTo_zero _ _).2 rfl, rfl, fun j u hj hu => ?_, rfl⟩,
    ⟨turns false none [], turns false none [], (runsTo_succ _ _ _).2 ⟨_, h3, (runsTo_zero _ _).2 rfl⟩, fun j u hj hu => ?_⟩,
    by decide, ⟨_, _, step_status_read true none [], by decide⟩⟩
  · exact (runsTo_succ _ _ _).2 ⟨_, h1, (runsTo_succ _ _ _).2 ⟨_, h2, (runsTo_zero _ _).2 rfl⟩⟩
  · exact ⟨fun x => List.not_mem_nil, rfl⟩
  · intro j u hj hu
    obtain rfl | rfl : j = 0 ∨ j = 1 := by omega
    · rw [← (runsTo_zero _ _).1 hu]
      exact unread _ _ _
    · obtain ⟨t, ht, hu⟩ := (runsTo_succ _ _ _).1 hu
      rw [← (runsTo_zero _ _).1 hu]
      rw [h1] at ht
      cases ht
      exact unread _ _ _
  · simp only [runProgram, h1, h2]
    rfl
  · obtain rfl : j = 0 := by omega
    rw [← (runsTo_zero _ _).1 hu]
    exact unread _ _ _
  · obtain rfl | rfl : j = 0 ∨ j = 1 := by omega
    · rw [← (runsTo_zero _ _).1 hu]
      exact unread _ _ _
    · obtain ⟨t, ht, hu⟩ := (runsTo_succ _ _ _).1 hu
      rw [← (runsTo_zero _ _).1 hu]
      rw [h3] at ht
      cases ht
      exact unread _ _ _

end Sys2Proof.Tests
end

section
/-! Network byte order (R12): the bytes of BE16 and BE32, the numbers RD16 and RD32 give, and that they undo each other. -/

namespace Sys2Proof.Machine

/-- Byte k of a bit vector, counted from the least significant end, is digit k of its value in base 256. -/
theorem extractLsb'_byte_eq_ofNat_div {w : Nat} (v : BitVec w) (k : Nat) :
    v.extractLsb' (8 * k) 8 = BitVec.ofNat 8 (v.toNat / 256 ^ k) := by
  apply BitVec.eq_of_toNat_eq
  simp [Nat.shiftRight_eq_div_pow, Nat.pow_mul]

theorem be16_eq_netBytes (v : Half) : be16 v = netBytes 2 v.toNat := by
  simp [be16, netBytes, List.range_succ, ← extractLsb'_byte_eq_ofNat_div]

theorem be32_eq_netBytes (v : Word) : be32 v = netBytes 4 v.toNat := by
  simp [be32, netBytes, List.range_succ, ← extractLsb'_byte_eq_ofNat_div]

theorem rd16_be16 (v : Half) : rd16 (be16 v) 0 = v := by
  change (v.extractLsb' 8 8 ++ v.extractLsb' 0 8 : BitVec (8 + 8)) = v
  rw [BitVec.extractLsb'_append_extractLsb'_eq_extractLsb' (by rfl)]
  exact BitVec.extractLsb'_eq_self

theorem rd32_be32 (v : Word) : rd32 (be32 v) 0 = v := by
  change (v.extractLsb' 24 8 ++ v.extractLsb' 16 8 ++ v.extractLsb' 8 8 ++ v.extractLsb' 0 8 : BitVec (8 + 8 + 8 + 8)) = v
  iterate 3 rw [BitVec.extractLsb'_append_extractLsb'_eq_extractLsb' (by rfl)]
  exact BitVec.extractLsb'_eq_self

/-- A slice inside a sequence is the bytes at its indices. -/
theorem take_drop_eq_map_byteAt (s : List Byte) (i n : Nat) (fits : i + n ≤ s.length) :
    (s.drop i).take n = (List.range n).map fun k => byteAt s (i + k) := by
  apply List.ext_getElem
  · simp only [List.length_take, List.length_drop, List.length_map, List.length_range]
    omega
  · intro k hk _
    have hlt : i + k < s.length := by
      simp only [List.length_take, List.length_drop] at hk
      omega
    simp [byteAt, hlt]

/-- Appending a byte below a bit vector is one step of Horner's rule in base 256, as `netVal` takes it. -/
theorem toNat_append_byte {w : Nat} (x : BitVec w) (b : Byte) : (x ++ b).toNat = 256 * x.toNat + b.toNat := by
  rw [BitVec.toNat_append, ← Nat.shiftLeft_add_eq_or_of_lt b.isLt, Nat.shiftLeft_eq, Nat.mul_comm]

theorem rd16_toNat_eq_netVal (s : List Byte) (i : Nat) (fits : i + 2 ≤ s.length) :
    (rd16 s i).toNat = netVal ((s.drop i).take 2) := by
  rw [take_drop_eq_map_byteAt s i 2 fits]
  simp [rd16, netVal, List.range_succ, toNat_append_byte]

theorem rd32_toNat_eq_netVal (s : List Byte) (i : Nat) (fits : i + 4 ≤ s.length) :
    (rd32 s i).toNat = netVal ((s.drop i).take 4) := by
  rw [take_drop_eq_map_byteAt s i 4 fits]
  simp [rd32, netVal, List.range_succ, toNat_append_byte]

/-- Settles O7 from the four functions' own lemmas: BE's bytes are base-256 digits (R12), RD's sums are Horner's rule. -/
theorem networkOrderBytes : Obligations.NetworkOrderBytes :=
  ⟨fun v => ⟨be16_eq_netBytes v, rd16_be16 v⟩, fun v => ⟨be32_eq_netBytes v, rd32_be32 v⟩, rd16_toNat_eq_netVal,
    rd32_toNat_eq_netVal⟩

end Sys2Proof.Machine
end

section
/-! What a command can do, by the shape of its effect: the thirteen rules write the state in five ways. -/

namespace Sys2Proof.Machine

/-- The effect of a command that answers a next state: an error, a sequence stored to BUF (an empty one for NOP), a checksum, the
assembled datagram with its sums, or a decoded message. -/
inductive ExecEffect (s : State) : Instr → State → Prop where
  | raised (i : Instr) (e : ErrorCode) : ExecEffect s i (s.raise e)
  | stored (i : Instr) (a : Nat) (bs : List Byte) (fits : a + bs.length ≤ 256)
      (noSum : ¬ ∃ a l, i = .csum a l ∨ i = .pcsum a l) : ExecEffect s i (s.writeBuf a bs).succeed
  | summed (i : Instr) (bs : List Byte) (isSum : ∃ a l, i = .csum a l ∨ i = .pcsum a l) :
      ExecEffect s i (s.setChecksum bs).succeed
  | assembled (a : Nat) (ucs ics : Half) (acc : Word) (bs : List Byte) (fits : a + bs.length ≤ 256) :
      ExecEffect s (.assemble a) ((s.setSums ucs ics acc).writeBuf a bs).succeed
  | decoded (a : Nat) (h t : List Byte) : ExecEffect s (.decodeNtp a) (s.setNtp h t).succeed

theorem ExecNext.effect {s t : State} {i : Instr} (h : ExecNext s i t) : ExecEffect s i t := by
  cases h with
  | raised i e => exact .raised i e
  | nop => exact .stored _ 0 [] (by simp) (by simp)
  | csum a l bs => exact .summed _ bs ⟨a, l, .inl rfl⟩
  | pcsum a l bs => exact .summed _ _ ⟨a, l, .inr rfl⟩
  | patch a fits => exact .stored _ a _ (by simpa using fits) (by simp)
  | serIp a fits => exact .stored _ a _ (by simpa using fits) (by simp)
  | serUdp a fits => exact .stored _ a _ (by simpa using fits) (by simp)
  | serPsh a fits => exact .stored _ a _ (by simpa using fits) (by simp)
  | serNtp a fits => exact .stored _ a _ (by simpa using fits) (by simp)
  | assemble a fits => exact .assembled a _ _ _ _ (by simpa using fits)
  | decodeNtp a h t => exact .decoded a h t
  | copy a b l bs fits _ len => exact .stored _ a bs (by omega) (by simp)
  | zero a l fits => exact .stored _ a _ (by simpa using fits) (by simp)

/-- What no command writes: the HOST's registers, the sticky bits, LAST_CMD, PENDING and the model's own fields (R25, R48). -/
structure KeepsHostSide (s t : State) : Prop where
  lastCmd : t.lastCmd = s.lastCmd
  pending : t.pending = s.pending
  srcValid : t.srcValid = s.srcValid
  dstValid : t.dstValid = s.dstValid
  drop : t.drop = s.drop
  srcAddr : t.srcAddr = s.srcAddr
  dstAddr : t.dstAddr = s.dstAddr
  srcPort : t.srcPort = s.srcPort
  ipId : t.ipId = s.ipId
  window : t.window = s.window
  busData : t.busData = s.busData
  lastPoll : t.lastPoll = s.lastPoll
  agenda : t.agenda = s.agenda

theorem ExecEffect.keepsHostSide {s t : State} {i : Instr} (h : ExecEffect s i t) : KeepsHostSide s t := by
  cases h with
  | raised | stored | summed | assembled | decoded => constructor <;> rfl

end Sys2Proof.Machine
end

section
/-! Everything one step can do when it answers a next state, said once (R23, R46, R73, R260). -/

namespace Sys2Proof.Machine

/-- A command word that answers a next state raised ILLEGAL or executed its command. -/
theorem executeWord_next (w : Word) (s t : State) (h : executeWord w s = .next t) : ∃ i, ExecNext s i t := by
  unfold executeWord at h
  split at h
  case h_1 i _ => exact ⟨i, exec_next i s t h⟩
  case h_2 => cases h; exact ⟨.nop, .raised _ .illegal⟩

/-- The ENGINE moves next, and `rest` are the turns to come after it (log 1, 2). -/
def EngineMoves (s : State) (rest : List Turn) : Prop :=
  (s.agenda = [] ∧ rest = []) ∨ s.agenda = .engine :: rest

theorem step_of_engineMoves (s : State) (rest : List Turn) (moves : EngineMoves s rest) :
    step s = engineTurn { s with agenda := rest } := by
  rcases moves with ⟨hs, rfl⟩ | hs
  · rw [step_nil s hs, ← hs]
  · exact step_engine s rest hs

/-- With a command pending, the ENGINE executes its word and clears BUSY (R46). -/
theorem step_of_engineMoves_busy (s : State) (rest : List Turn) (w : Word) (moves : EngineMoves s rest)
    (busy : s.pending = some w) : step s = finishing (executeWord w { s with agenda := rest }) := by
  simp [step_of_engineMoves s rest moves, engineTurn, busy]

/-- With BUSY = 0 the ENGINE's turn passes (log 3). -/
theorem step_of_engineMoves_idle (s : State) (rest : List Turn) (moves : EngineMoves s rest) (idle : s.pending = none) :
    step s = .next { s with agenda := rest } := by
  simp [step_of_engineMoves s rest moves, engineTurn, idle]

/-- How a step answers a next state, by who moves. -/
inductive StepNext (s : State) : State → Prop where
  | idle (rest : List Turn) (moves : EngineMoves s rest) (idle : s.pending = none) : StepNext s { s with agenda := rest }
  | command (rest : List Turn) (w : Word) (i : Instr) (u : State) (moves : EngineMoves s rest) (busy : s.pending = some w)
      (exec : ExecNext { s with agenda := rest } i u) : StepNext s u.finish
  | host (rest : List Turn) (x : BusAccess) (t : State) (moves : s.agenda = .host x :: rest)
      (access : HostNext { s with agenda := rest } x t) : StepNext s t
  | reset (rest : List Turn) (moves : s.agenda = .reset :: rest) : StepNext s (State.applyReset { s with agenda := rest })

theorem engineStep_next (s t : State) (rest : List Turn) (moves : EngineMoves s rest) (h : step s = .next t) :
    StepNext s t := by
  cases hp : s.pending with
  | none =>
    rw [step_of_engineMoves_idle s rest moves hp] at h
    cases h
    exact .idle rest moves hp
  | some w =>
    rw [step_of_engineMoves_busy s rest w moves hp] at h
    cases he : executeWord w { s with agenda := rest } with
    | next u =>
      obtain ⟨i, hi⟩ := executeWord_next _ _ _ he
      rw [he] at h
      cases h
      exact .command rest w i u moves hp hi
    | fault | refused => rw [he] at h; cases h

/-- A step that answers a next state does so in one of the ways of `StepNext`. -/
theorem step_next (s t : State) (h : step s = .next t) : StepNext s t := by
  rcases takeTurn_cases s with ⟨hs, _⟩ | ⟨rest, hs, _⟩ | ⟨x, rest, hs, hx⟩ | ⟨rest, hs, hr⟩
  · exact engineStep_next s t [] (.inl ⟨hs, rfl⟩) h
  · exact engineStep_next s t rest (.inr hs) h
  · exact .host rest x t hs (hostTurn_cases x _ t (hx ▸ h))
  · cases hr.symm.trans h
    exact .reset rest hs

end Sys2Proof.Machine
end

section
/-! The machine's invariant: every operation keeps it, so every step does. -/

namespace Sys2Proof.Machine

theorem ntpLeap_toNat (b : Byte) : (ntpLeap b).toNat = b.toNat / 64 := by
  have hb := b.isLt
  rw [ntpLeap, BitVec.extractLsb'_toNat, Nat.shiftRight_eq_div_pow]
  omega

theorem ntpVersion_toNat (b : Byte) : (ntpVersion b).toNat = b.toNat / 8 % 8 := by
  rw [ntpVersion, BitVec.extractLsb'_toNat, Nat.shiftRight_eq_div_pow]

theorem ntpMode_toNat (b : Byte) : (ntpMode b).toNat = b.toNat % 8 := by
  rw [ntpMode, BitVec.extractLsb'_toNat, Nat.shiftRight_eq_div_pow, Nat.pow_zero, Nat.div_one]

/-- A number put below a shifted one that leaves room for it is added. -/
theorem or_shiftLeft_toNat (x y : Word) (n : Nat) (hx : x.toNat * 2 ^ n < 2 ^ 32) (hy : y.toNat < 2 ^ n) :
    (x <<< n ||| y).toNat = x.toNat * 2 ^ n + y.toNat := by
  rw [BitVec.toNat_or, BitVec.toNat_shiftLeft, Nat.shiftLeft_eq, Nat.mod_eq_of_lt hx, ← Nat.shiftLeft_eq,
    ← Nat.shiftLeft_add_eq_or_of_lt hy]

/-- NTP_UNPACK holds the three fields of the status byte at their places (R40). -/
theorem ntpUnpackWord_toNat (b : Byte) :
    (ntpUnpackWord b).toNat = 2 ^ 16 * (b.toNat / 64) + 2 ^ 8 * (b.toNat / 8 % 8) + b.toNat % 8 := by
  have hb := b.isLt
  have regroup : ntpUnpackWord b =
      ((ntpLeap b).setWidth 32 <<< 8 ||| (ntpVersion b).setWidth 32) <<< 8 ||| (ntpMode b).setWidth 32 := by
    rw [ntpUnpackWord, BitVec.shiftLeft_or_distrib, ← BitVec.shiftLeft_add]
  have li : ((ntpLeap b).setWidth 32).toNat = b.toNat / 64 := by
    rw [BitVec.toNat_setWidth_of_le (by decide), ntpLeap_toNat]
  have vn : ((ntpVersion b).setWidth 32).toNat = b.toNat / 8 % 8 := by
    rw [BitVec.toNat_setWidth_of_le (by decide), ntpVersion_toNat]
  have mode : ((ntpMode b).setWidth 32).toNat = b.toNat % 8 := by
    rw [BitVec.toNat_setWidth_of_le (by decide), ntpMode_toNat]
  have upper : ((ntpLeap b).setWidth 32 <<< 8 ||| (ntpVersion b).setWidth 32).toNat = b.toNat / 64 * 2 ^ 8 + b.toNat / 8 % 8 := by
    rw [or_shiftLeft_toNat, li, vn] <;> omega
  rw [regroup, or_shiftLeft_toNat, upper, mode] <;> omega

theorem rd32_toNat (s : List Byte) (i : Nat) :
    (rd32 s i).toNat = 256 * (256 * (256 * (byteAt s i).toNat + (byteAt s (i + 1)).toNat) + (byteAt s (i + 2)).toNat)
      + (byteAt s (i + 3)).toNat := by
  simp only [rd32, toNat_append_byte]

/-- NTP_W0 and NTP_UNPACK come from the same status byte (R39, R40). -/
theorem ntpUnpackWord_eq_of_rd32 (h : List Byte) :
    (ntpUnpackWord (byteAt h 0)).toNat = 2 ^ 16 * ((rd32 h 0).toNat / 2 ^ 30) +
      2 ^ 8 * ((rd32 h 0).toNat / 2 ^ 27 % 8) + (rd32 h 0).toNat / 2 ^ 24 % 8 := by
  have h0 := (byteAt h 0).isLt
  have h1 := (byteAt h 1).isLt
  have h2 := (byteAt h 2).isLt
  have h3 := (byteAt h 3).isLt
  rw [ntpUnpackWord_toNat, rd32_toNat]
  omega

namespace State.Inv

/-- The coming turns and what the HOST has read are outside the invariant. -/
theorem modelFields {s : State} (h : s.Inv) (agenda : List Turn) (busData : Option Word) (lastPoll : Option Bool) :
    { s with agenda := agenda, busData := busData, lastPoll := lastPoll }.Inv :=
  { h with }

theorem raise {s : State} (h : s.Inv) (e : ErrorCode) : (s.raise e).Inv :=
  { h with
    errIff := by cases e <;> simp [ErrorCode.code]
    errcodeLe := by cases e <;> simp [ErrorCode.code] }

theorem succeed {s : State} (h : s.Inv) : s.succeed.Inv :=
  { h with
    errIff := by simp
    errcodeLe := by simp }

theorem writeBuf {s : State} (h : s.Inv) (a : Nat) (bs : List Byte) (fits : a + bs.length ≤ 256) : (s.writeBuf a bs).Inv :=
  { h with bufWf := Memory.writeRange_wf bs s.buf a fits h.bufWf }

theorem setChecksum {s : State} (h : s.Inv) (bs : List Byte) : (s.setChecksum bs).Inv :=
  { h with }

theorem setSums {s : State} (h : s.Inv) (ucs ics : Half) (acc : Word) : (s.setSums ucs ics acc).Inv :=
  { h with }

theorem setNtp {s : State} (inv : s.Inv) (h t : List Byte) : (s.setNtp h t).Inv :=
  { inv with
    unpackAgrees := ntpUnpackWord_eq_of_rd32 h
    unixAgrees := .inl ⟨rfl, decide_eq_true_iff⟩ }

theorem accept {s : State} (h : s.Inv) (w : Word) : (s.accept w).Inv :=
  { h with
    pendingIsLast := by simp
    busyInWindow := fun _ => rfl }

theorem finish {s : State} (h : s.Inv) : s.finish.Inv :=
  { h with
    pendingIsLast := by simp
    busyInWindow := by simp [State.busy] }

theorem reset : State.reset.Inv where
  bufWf := Memory.reset_wf
  errIff := by decide
  errcodeLe := by decide
  pendingIsLast := fun _ h => by cases h
  busyInWindow := fun h => by cases h
  srcInvalid := fun _ => rfl
  dstInvalid := fun _ => rfl
  unpackAgrees := rfl
  unixAgrees := .inr ⟨rfl, rfl, rfl⟩

theorem execNext {s t : State} {i : Instr} (inv : s.Inv) (h : ExecNext s i t) : t.Inv := by
  cases h.effect with
  | raised i e => exact inv.raise e
  | stored i a bs fits => exact (inv.writeBuf a bs fits).succeed
  | summed i bs => exact (inv.setChecksum bs).succeed
  | assembled a ucs ics acc bs fits => exact ((inv.setSums ucs ics acc).writeBuf a bs fits).succeed
  | decoded a bs ts => exact (inv.setNtp bs ts).succeed

/-- A register read leaves the interval open while BUSY = 1: it closes it only where it returns BUSY = 0 (R262). -/
theorem readWindow {s : State} (h : s.Inv) (r : Reg) : { s with window := s.window && !closesWindow r s }.Inv :=
  { h with
    busyInWindow := fun busy => by
      have busy : s.busy = true := busy
      simp [closesWindow, busy, h.busyInWindow busy] }

theorem writeReg {s : State} (h : s.Inv) (r : Reg) (w : Word) : (Machine.writeReg r w s).Inv := by
  rcases writeReg_cases r w s with ⟨_, _, e⟩ | ⟨_, _, e⟩ | ⟨_, _, e⟩ | ⟨_, e⟩ | ⟨_, e⟩ | ⟨_, e⟩ | ⟨_, e⟩ | e <;> rw [e]
  · exact { h with }
  · exact h.accept w
  · exact { h with }
  · exact { h with srcInvalid := nofun }
  · exact { h with dstInvalid := nofun }
  · exact { h with }
  · exact { h with }
  · exact h

theorem hostNext {s t : State} {x : BusAccess} (inv : s.Inv) (h : HostNext s x t) : t.Inv := by
  cases h with
  | readReg off => exact (inv.readWindow (regAt off)).modelFields _ _ _
  | writeReg off value => exact inv.writeReg _ value
  | readBuf => exact inv.modelFields _ _ _
  | writeBuf width a value _ fits => exact inv.writeBuf a _ (by simpa using fits)

theorem step {s t : State} (inv : s.Inv) (h : StepNext s t) : t.Inv := by
  cases h with
  | idle rest => exact inv.modelFields rest _ _
  | command rest w i u _ _ exec => exact ((inv.modelFields rest _ _).execNext exec).finish
  | host rest x t _ access => exact (inv.modelFields rest _ _).hostNext access
  | reset rest => exact reset.modelFields rest _ _

end State.Inv

/-- Settles O58: the reset values meet every clause. -/
theorem resetMeetsInvariant : Obligations.ResetMeetsInvariant :=
  State.Inv.reset

/-- Settles O57: each operation keeps the invariant, and a step is made of them. -/
theorem stepKeepsInvariant : Obligations.StepKeepsInvariant :=
  fun s t inv h => inv.step (step_next s t h)

end Sys2Proof.Machine
end

section
/-! What commands write and leave alone (R48, R25), and that they complete on a defined BUF (R45, R80). -/

namespace Sys2Proof.Machine

namespace ExecEffect

variable {s t : State} {i : Instr}

theorem sums_of_z_ne (effect : ExecEffect s i t) (h : t.z ≠ s.z) : t.err = false ∧ ∃ a l, i = .csum a l ∨ i = .pcsum a l := by
  cases effect with
  | summed i bs isSum => exact ⟨rfl, isSum⟩
  | raised | stored | assembled | decoded => exact absurd rfl h

theorem z_of_sums (effect : ExecEffect s i t) (ok : t.err = false) (h : ∃ a l, i = .csum a l ∨ i = .pcsum a l) :
    t.z = decide (t.result = 0x0000) := by
  cases effect with
  | summed => rfl
  | raised => cases ok
  | stored _ _ _ _ noSum => exact absurd h noSum
  | assembled | decoded => simp at h

theorem decodes_of_borrow_ne (effect : ExecEffect s i t) (h : t.borrow ≠ s.borrow) :
    t.err = false ∧ ∃ a, i = .decodeNtp a := by
  cases effect with
  | decoded a => exact ⟨rfl, a, rfl⟩
  | raised | stored | summed | assembled => exact absurd rfl h

theorem err_iff (effect : ExecEffect s i t) : t.err = true ↔ t.errcode ≠ 0 := by
  cases effect with
  | raised i e => cases e <;> simp [ErrorCode.code]
  | stored | summed | assembled | decoded => simp

theorem sums_or_assembles_of_result_ne (effect : ExecEffect s i t) (h : t.result ≠ s.result ∨ t.acc ≠ s.acc) :
    ∃ a l, i = .csum a l ∨ i = .pcsum a l ∨ i = .assemble a := by
  cases effect with
  | summed i bs isSum =>
    obtain ⟨a, l, hi⟩ := isSum
    exact ⟨a, l, hi.imp_right .inl⟩
  | assembled a => exact ⟨a, 0, .inr (.inr rfl)⟩
  | raised | stored | decoded => simp at h

theorem assembles_of_csum_ne (effect : ExecEffect s i t) (h : t.udpCsum ≠ s.udpCsum ∨ t.ipCsum ≠ s.ipCsum) :
    ∃ a, i = .assemble a := by
  cases effect with
  | assembled a => exact ⟨a, rfl⟩
  | raised | stored | summed | decoded => simp at h

theorem decodes_of_ntp_ne (effect : ExecEffect s i t)
    (h : t.ntpW0 ≠ s.ntpW0 ∨ t.ntpUnpack ≠ s.ntpUnpack ∨ t.ntpW1 ≠ s.ntpW1 ∨ t.ntpW2 ≠ s.ntpW2 ∨ t.ntpW3 ≠ s.ntpW3 ∨
      t.ntpTxSecs ≠ s.ntpTxSecs ∨ t.ntpTxFrac ≠ s.ntpTxFrac ∨ t.unixSecs ≠ s.unixSecs) : ∃ a, i = .decodeNtp a := by
  cases effect with
  | decoded a => exact ⟨a, rfl⟩
  | raised | stored | summed | assembled => simp at h

end ExecEffect

/-- Settles O33 over the effects a command can have: a checksum alone writes Z, a decoded message alone BORROW. -/
theorem flagWriters : Obligations.FlagWriters := by
  intro i s t h
  have effect := (exec_next i s t h).effect
  have keeps := effect.keepsHostSide
  exact ⟨effect.sums_of_z_ne, effect.z_of_sums, effect.decodes_of_borrow_ne, effect.err_iff, keeps.srcValid, keeps.dstValid,
    keeps.drop⟩

/-- Settles O34 over the effects a command can have, none of which touches the HOST's side. -/
theorem registerWriters : Obligations.RegisterWriters := by
  intro i s t h
  have effect := (exec_next i s t h).effect
  have keeps := effect.keepsHostSide
  exact ⟨effect.sums_or_assembles_of_result_ne, effect.assembles_of_csum_ne, effect.decodes_of_ntp_ne, keeps.srcAddr,
    keeps.dstAddr, keeps.srcPort, keeps.ipId, keeps.lastCmd, keeps.pending, keeps.window, keeps.busData, keeps.lastPoll,
    keeps.agenda⟩

theorem ifFits_completes (s : State) (a n : Nat) (body : Result) (h : a + n ≤ 256 → ∃ t, body = .next t) :
    ∃ t, ifFits s a n body = .next t := by
  by_cases fits : a + n ≤ 256
  · rw [ifFits_of_le s a n body fits]
    exact h fits
  · exact ⟨_, ifFits_of_gt s a n body (by omega)⟩

theorem ifResolved_completes (s : State) (body : Result) (h : ∃ t, body = .next t) : ∃ t, ifResolved s body = .next t := by
  rw [ifResolved]
  split
  · exact h
  · exact ⟨_, rfl⟩

/-- Reading a range inside a fully defined BUF goes on with some bytes. -/
theorem withBytes_completes (s : State) (a n : Nat) (body : List Byte → Result)
    (defined : ∀ k, k < 256 → s.buf.read? k ≠ none) (fits : a + n ≤ 256) (h : ∀ bs, ∃ t, body bs = .next t) : ∃ t, withBytes s a n body = .next t := by
  cases hr : s.buf.readRange a n with
  | some bs => simpa [withBytes, hr] using h bs
  | none =>
    obtain ⟨i, hi, undefined⟩ := (Memory.readRange_eq_none_iff n s.buf a).1 hr
    exact absurd undefined (defined (a + i) (by omega))

/-- Settles O36: every check a command makes raises an error or goes on, and every read it makes is inside BUF. -/
theorem commandsCompleteOnDefinedBuf : Obligations.CommandsCompleteOnDefinedBuf := by
  intro i s defined
  have reads := fun a n body => withBytes_completes s a n body defined
  cases i with
  | nop | reserved => exact ⟨_, rfl⟩
  | csum a l => exact ifFits_completes s a l _ fun fits => reads a l _ fits fun _ => ⟨_, rfl⟩
  | pcsum a l =>
    refine ifFits_completes s a l _ fun fits => ifResolved_completes s _ ?_
    split
    · exact ⟨_, rfl⟩
    · refine reads _ _ _ (by omega) fun field => ?_
      split
      · exact reads a l _ fits fun _ => ⟨_, rfl⟩
      · exact ⟨_, rfl⟩
  | patch a | serUdp a | serNtp a | zero a l => exact ifFits_completes s a _ _ fun _ => ⟨_, rfl⟩
  | serIp a | serPsh a | assemble a => exact ifFits_completes s a _ _ fun _ => ifResolved_completes s _ ⟨_, rfl⟩
  | decodeNtp a =>
    refine ifFits_completes s a 48 _ fun fits => ?_
    exact reads _ _ _ (by omega) fun _ => reads _ _ _ (by omega) fun _ => ⟨_, rfl⟩
  | copy a b l =>
    refine ifFits_completes s a l _ fun _ => ifFits_completes s b l _ fun fits => ?_
    exact reads b l _ fits fun _ => ⟨_, rfl⟩

end Sys2Proof.Machine
end

section
/-! The ENGINE's step and the reset values (R46, R49). -/

namespace Sys2Proof.Machine

/-- Settles O6: the ENGINE's turn executes the pending word, by what the word decodes to. -/
theorem engineStepRunsCommand : Obligations.EngineStepRunsCommand := by
  intro s rest moves
  refine ⟨fun w i busy hd => ?_, fun w why busy hd => ?_, step_of_engineMoves_idle s rest moves⟩
  · rw [step_of_engineMoves_busy s rest w moves busy, executeWord, hd]
    rfl
  · rw [step_of_engineMoves_busy s rest w moves busy, executeWord, hd]
    rfl

/-- Settles O38: every register's value is read off `State.reset`, and an empty BUF defines no byte. -/
theorem resetValues : Obligations.ResetValues :=
  ⟨rfl, rfl, rfl, rfl, rfl, rfl, rfl, rfl, rfl, rfl, rfl, rfl, rfl, rfl, rfl, rfl, rfl, rfl, rfl, Memory.read?_nil⟩

end Sys2Proof.Machine
end

section
/-! One register access as a step (R26, R27, R262), and what a register write does, by its offset. -/

namespace Sys2Proof.Machine

/-- The value a register reads as does not depend on the turns to come. -/
@[simp] theorem readReg_agenda (r : Reg) (s : State) (rest : List Turn) : readReg r { s with agenda := rest } = readReg r s := by
  cases r <;> rfl

/-- A register read as a step, where R262 does not forbid it. -/
theorem step_readReg (s : State) (rest : List Turn) (off : Nat) (inSpace : off < 0x100) (aligned : off % 4 = 0)
    (noHazard : (s.window && readHazard (regAt off)) = false)
    (moves : s.agenda = .host (.read .word (Config.base + off)) :: rest) :
    step s = .next { s with
      agenda := rest, busData := some (readReg (regAt off) s), window := s.window && !closesWindow (regAt off) s
      lastPoll := lastPollAfter (regAt off) s } := by
  rw [step_host s _ rest moves, hostTurn_read _ off _ (by omega), accessAt, if_pos (show off < Config.bufBase from inSpace),
    readRegSpace, if_pos ⟨rfl, aligned⟩, if_neg (by simpa using noHazard), readReg_agenda, lastPollAfter_eq, lastPollAfter_eq]
  rfl

/-- A read of any register but STATUS hands its value over and changes nothing else. -/
theorem step_readReg_of_ne_status (s : State) (rest : List Turn) (off : Nat) (inSpace : off < 0x100) (aligned : off % 4 = 0)
    (noHazard : (s.window && readHazard (regAt off)) = false) (notStatus : regAt off ≠ .status)
    (moves : s.agenda = .host (.read .word (Config.base + off)) :: rest) :
    step s = .next { s with agenda := rest, busData := some (readReg (regAt off) s) } := by
  rw [step_readReg s rest off inSpace aligned noHazard moves, lastPollAfter_eq]
  simp [closesWindow, notStatus]

/-- A register write as a step, where R262 does not forbid it. -/
theorem step_writeReg (s : State) (rest : List Turn) (off : Nat) (w : Word) (inSpace : off < 0x100) (aligned : off % 4 = 0)
    (noHazard : (s.window && writeHazard (regAt off)) = false)
    (moves : s.agenda = .host (.write .word (Config.base + off) w) :: rest) :
    step s = .next (writeReg (regAt off) w { s with agenda := rest }) := by
  rw [step_host s _ rest moves, hostTurn_write _ off _ _ (by omega), accessAt, if_pos (show off < Config.bufBase from inSpace),
    writeRegSpace, if_pos ⟨rfl, aligned⟩, if_neg (by simpa using noHazard)]

/-- `writeReg_cases` with the register's offset for the register (R25). -/
theorem writeReg_regAt_cases (off : Nat) (w : Word) (s : State) (inSpace : off < 0x100) (aligned : off % 4 = 0) :
    (off = 0x000 ∧ s.pending ≠ none ∧ writeReg (regAt off) w s = { s with drop := true }) ∨
    (off = 0x000 ∧ s.pending = none ∧ writeReg (regAt off) w s = s.accept w) ∨
    (off = 0x004 ∧ w.getLsbD 10 = true ∧ writeReg (regAt off) w s = { s with drop := false }) ∨
    (off = 0x010 ∧ writeReg (regAt off) w s = { s with srcAddr := w, srcValid := true }) ∨
    (off = 0x014 ∧ writeReg (regAt off) w s = { s with dstAddr := w, dstValid := true }) ∨
    (off = 0x018 ∧ writeReg (regAt off) w s = { s with srcPort := w.setWidth 16 }) ∨
    (off = 0x01C ∧ writeReg (regAt off) w s = { s with ipId := w.setWidth 16 }) ∨
    writeReg (regAt off) w s = s := by
  obtain ⟨hcmd, hstatus, hsrc, hdst, hport, hid⟩ := regAt_eq_iff off inSpace aligned
  simpa only [hcmd, hstatus, hsrc, hdst, hport, hid] using writeReg_cases (regAt off) w s

/-- A read-only register or a reserved offset ignores a write (R27). -/
theorem writeReg_regAt_of_readOnly (off : Nat) (w : Word) (s : State) (inSpace : off < 0x100) (aligned : off % 4 = 0)
    (readOnly : off = 0x008 ∨ off = 0x00C ∨ 0x020 ≤ off) : writeReg (regAt off) w s = s := by
  rcases writeReg_regAt_cases off w s inSpace aligned with h | h | h | h | h | h | h | h
  case inr.inr.inr.inr.inr.inr.inr => exact h
  all_goals omega

theorem regAt_of_reserved (off : Nat) (h : 0x048 ≤ off) : regAt off = .reserved := by
  unfold regAt
  split
  case h_19 => rfl
  all_goals omega

/-- The bits SRC_PORT and IP_ID do not implement are ignored in a write (R27). -/
theorem writeReg_regAt_low_half (off : Nat) (w : Word) (s : State) (half : off = 0x018 ∨ off = 0x01C) :
    writeReg (regAt off) (w &&& 0x0000FFFF) s = writeReg (regAt off) w s := by
  have low : (w &&& 0x0000FFFF).setWidth 16 = w.setWidth 16 := by
    rw [BitVec.setWidth_and]
    exact BitVec.and_allOnes
  rcases half with rfl | rfl <;> simp only [regAt, writeReg, low]

/-- The bits SRC_PORT and IP_ID do not implement read as zero (R27). -/
theorem readReg_regAt_lt_half (off : Nat) (s : State) (half : off = 0x018 ∨ off = 0x01C) :
    (readReg (regAt off) s).toNat < 2 ^ 16 := by
  have widen : ∀ x : Half, (x.setWidth 32).toNat < 2 ^ 16 := fun x => by
    rw [BitVec.toNat_setWidth_of_le (by decide)]
    exact x.isLt
  rcases half with rfl | rfl
  · exact widen s.srcPort
  · exact widen s.ipId

end Sys2Proof.Machine
end

section
/-! The registers of the map, read and written by the HOST (R27 to R43). -/

namespace Sys2Proof.Machine

/-- Settles O40: CMD is open to reads and writes in every state, and a write is decided by BUSY alone. -/
theorem cmdRegister : Obligations.CmdRegister := by
  intro s rest w
  have write := step_writeReg s rest 0x000 w (by decide) rfl (Bool.and_false _)
  have read := step_readReg_of_ne_status s rest 0x000 (by decide) rfl (Bool.and_false _) (by decide)
  refine ⟨fun moves idle => ⟨_, write moves, ?_⟩, fun moves busy => ?_, read⟩
  · simp [regAt, writeReg, writeCmd, State.busy, idle, State.accept]
  · rw [write moves]
    simp [regAt, writeReg, writeCmd, State.busy, Option.isSome_iff_ne_none, busy]

/-- Settles O42: a STATUS write is allowed in every state, and bit 10 decides it. -/
theorem statusWriteClearsDrop : Obligations.StatusWriteClearsDrop := by
  intro s rest w moves
  have access := step_writeReg s rest 0x004 w (by decide) rfl (Bool.and_false _) moves
  exact ⟨fun set => access.trans (congrArg _ (if_pos set)),
    fun clear => access.trans (congrArg _ (if_neg (Bool.eq_false_iff.1 clear)))⟩

/-- Settles O43: outside the interval the write is the register's, and no read of an address is a hazard. -/
theorem addressRegisters : Obligations.AddressRegisters := by
  intro s rest w
  exact ⟨fun moves closed => step_writeReg s rest 0x010 w (by decide) rfl (by simp [closed]) moves,
    fun moves closed => step_writeReg s rest 0x014 w (by decide) rfl (by simp [closed]) moves,
    step_readReg_of_ne_status s rest 0x010 (by decide) rfl (Bool.and_false _) (by decide),
    step_readReg_of_ne_status s rest 0x014 (by decide) rfl (Bool.and_false _) (by decide)⟩

/-- Settles O44: as for the addresses, the write being cut to its low half. -/
theorem portAndIdRegisters : Obligations.PortAndIdRegisters := by
  intro s rest w
  have kept : BitVec.ofNat 16 (w.toNat % 2 ^ 16) = w.setWidth 16 := by
    apply BitVec.eq_of_toNat_eq
    simp
  rw [kept, BitVec.ofNat_toNat, BitVec.ofNat_toNat]
  exact ⟨fun moves closed => step_writeReg s rest 0x018 w (by decide) rfl (by simp [closed]) moves,
    fun moves closed => step_writeReg s rest 0x01C w (by decide) rfl (by simp [closed]) moves,
    step_readReg_of_ne_status s rest 0x018 (by decide) rfl (Bool.and_false _) (by decide),
    step_readReg_of_ne_status s rest 0x01C (by decide) rfl (Bool.and_false _) (by decide)⟩

/-- The offsets of the result registers (R25). -/
def resultOffsets : List Nat :=
  [0x008, 0x00C, 0x020, 0x024, 0x028, 0x02C, 0x030, 0x034, 0x038, 0x03C, 0x040, 0x044]

/-- Settles O46: the statement's pairs are the result registers' offsets with the value each reads as. -/
theorem resultRegistersRead : Obligations.ResultRegistersRead := by
  intro s rest closed p hp
  change p ∈ resultOffsets.map fun off => (off, readReg (regAt off) s) at hp
  obtain ⟨off, hoff, rfl⟩ := List.mem_map.1 hp
  obtain ⟨inSpace, aligned, notStatus⟩ :=
    (by decide : ∀ off ∈ resultOffsets, off < 0x100 ∧ off % 4 = 0 ∧ regAt off ≠ .status) off hoff
  exact step_readReg_of_ne_status s rest off inSpace aligned (by simp [closed]) notStatus

/-- Settles O45 from what each kind of offset reads as and does with a write. -/
theorem reservedAndReadOnlyOffsets : Obligations.ReservedAndReadOnlyOffsets := by
  intro s rest w off aligned inSpace
  refine ⟨fun reserved moves => ?_, fun readOnly closed moves => ?_, fun half closed moves => ?_, fun half moves => ?_⟩
  · have hr := regAt_of_reserved off reserved
    rw [step_readReg_of_ne_status s rest off inSpace aligned (by simp [hr, readHazard]) (by simp [hr]) moves, hr]
    rfl
  · rw [step_writeReg s rest off w inSpace aligned (by simp [closed]) moves,
      writeReg_regAt_of_readOnly off w _ inSpace aligned readOnly]
  · refine ⟨_, step_writeReg s rest off w inSpace aligned (by simp [closed]) moves, ?_⟩
    rw [step_writeReg _ rest off (w &&& 0x0000FFFF) inSpace aligned (by simp [closed]) rfl, writeReg_regAt_low_half off w _ half]
  · have readable : readHazard (regAt off) = false ∧ regAt off ≠ .status := by
      rcases half with rfl | rfl <;> decide
    exact ⟨_, _, step_readReg_of_ne_status s rest off inSpace aligned (by simp [readable.1]) readable.2 moves, rfl,
      readReg_regAt_lt_half off s half⟩

end Sys2Proof.Machine
end

section
/-! What a STATUS read returns (R29). -/

namespace Sys2Proof.Machine

/-- STATUS by the bit (R29). -/
theorem statusWord_getLsbD (s : State) :
    (statusWord s).getLsbD 0 = s.busy ∧ (statusWord s).getLsbD 1 = s.err ∧ (statusWord s).getLsbD 2 = s.z ∧
    (statusWord s).getLsbD 3 = s.borrow ∧ (statusWord s).getLsbD 8 = s.srcValid ∧ (statusWord s).getLsbD 9 = s.dstValid ∧
    (statusWord s).getLsbD 10 = s.drop := by
  simp only [statusWord, BitVec.getLsbD_append]
  simp

/-- ERRCODE stands in bits 7:4 of STATUS (R29). -/
theorem statusWord_errcode (s : State) : (statusWord s).extractLsb' 4 4 = s.errcode := by
  apply BitVec.eq_of_getLsbD_eq
  intro i hi
  simp only [BitVec.getLsbD_extractLsb', statusWord, BitVec.getLsbD_append]
  simp [hi]

/-- Bits 31:11 of STATUS are zero (R29). -/
theorem statusWord_lt (s : State) : (statusWord s).toNat < 2 ^ 11 := by
  refine Nat.lt_pow_two_of_testBit _ fun i hi => ?_
  obtain ⟨j, rfl⟩ := Nat.exists_eq_add_of_le hi
  have pastErrcode : ¬ 7 + j < 4 ∧ 7 + j - 4 = j + 3 := by omega
  rw [BitVec.testBit_toNat]
  simp only [statusWord, BitVec.getLsbD_append]
  simp [pastErrcode]

/-- Settles O41: the word read is STATUS, which holds every field at its place. -/
theorem statusReadReturnsEveryField : Obligations.StatusReadReturnsEveryField := by
  intro s rest moves
  obtain ⟨hbusy, herr, hz, hborrow, hsrc, hdst, hdrop⟩ := statusWord_getLsbD s
  refine ⟨statusWord s, ?_, hbusy, herr, hz, hborrow, statusWord_errcode s, hsrc, hdst, hdrop, statusWord_lt s⟩
  rw [step_readReg s rest 0x004 (by decide) rfl (Bool.and_false _) moves]
  simp [regAt, readReg, closesWindow, lastPollAfter, State.busy]

end Sys2Proof.Machine
end

section
/-! HOST accesses that stop the model whatever the state (R24, R26, R76). -/

namespace Sys2Proof.Machine

theorem windowOffset_outside (addr : Nat) (outside : addr < Config.base ∨ Config.base + 0x200 ≤ addr) :
    windowOffset addr = none := by
  rw [windowOffset, if_neg]
  simp only [Config.windowSize]
  omega

/-- Settles O51: the block decodes no address outside its window. -/
theorem accessOutsideWindowFaults : Obligations.AccessOutsideWindowFaults := by
  intro s rest x moves outside
  rw [step_host s x rest moves, hostTurn, windowOffset_outside x.addr outside]

/-- Settles O47: each space tests width and alignment before anything else. -/
theorem unsupportedAccessFaults : Obligations.UnsupportedAccessFaults := by
  rintro s rest width off w (⟨inRegs, bad⟩ | ⟨hlo, hhi, bad⟩)
  · have below : off < Config.bufBase := inRegs
    have notOk : ¬ (width = .word ∧ off % 4 = 0) := by tauto
    refine ⟨fun moves => ?_, fun moves => ?_⟩
    · rw [step_host s _ rest moves, hostTurn_read _ off _ (by omega), accessAt, if_pos below, readRegSpace, if_neg notOk]
    · rw [step_host s _ rest moves, hostTurn_write _ off _ _ (by omega), accessAt, if_pos below, writeRegSpace, if_neg notOk]
  · have above : ¬ off < Config.bufBase := Nat.not_lt.2 hlo
    have notOk : ¬ bufAligned width (off - Config.bufBase) = true := fun ok => bad (of_decide_eq_true ok).1
    refine ⟨fun moves => ?_, fun moves => ?_⟩
    · rw [step_host s _ rest moves, hostTurn_read _ off _ hhi, accessAt, if_neg above, readBufWindow, if_neg notOk]
    · rw [step_host s _ rest moves, hostTurn_write _ off _ _ hhi, accessAt, if_neg above, writeBufWindow, if_neg notOk]

end Sys2Proof.Machine
end

section
/-! Who writes LAST_CMD, DROP, SRC_VALID and DST_VALID (R28, R30, R33, R34, R48). -/

namespace Sys2Proof.Machine

/-- The four pieces of the state that only register writes and reset touch. -/
structure KeepsSticky (s t : State) : Prop where
  lastCmd : t.lastCmd = s.lastCmd
  drop : t.drop = s.drop
  srcValid : t.srcValid = s.srcValid
  dstValid : t.dstValid = s.dstValid

/-- A step that answers a next state is a reset, a register write, or leaves LAST_CMD and the sticky bits alone. -/
theorem step_sticky_cases (s t : State) (h : step s = .next t) :
    (∃ rest, s.agenda = .reset :: rest ∧ t = State.applyReset { s with agenda := rest }) ∨
    (∃ off w rest, off < 0x100 ∧ off % 4 = 0 ∧ s.agenda = .host (.write .word (Config.base + off) w) :: rest ∧
      t = writeReg (regAt off) w { s with agenda := rest }) ∨
    KeepsSticky s t := by
  cases step_next s t h with
  | idle rest => exact .inr (.inr ⟨rfl, rfl, rfl, rfl⟩)
  | command rest w i u moves busy exec =>
    have keeps := exec.effect.keepsHostSide
    exact .inr (.inr ⟨keeps.lastCmd, keeps.drop, keeps.srcValid, keeps.dstValid⟩)
  | host rest x t moves access =>
    cases access with
    | writeReg off w inSpace aligned => exact .inr (.inl ⟨off, w, rest, inSpace, aligned, moves, rfl⟩)
    | readReg | readBuf | writeBuf => exact .inr (.inr ⟨rfl, rfl, rfl, rfl⟩)
  | reset rest moves => exact .inl ⟨rest, moves, rfl⟩

/-- Settles O55: of the register writes, only an accepted CMD write changes LAST_CMD. -/
theorem lastCmdWriters : Obligations.LastCmdWriters := by
  intro s t h changed
  rcases step_sticky_cases s t h with ⟨rest, moves, rfl⟩ | ⟨off, w, rest, inSpace, aligned, moves, rfl⟩ | keeps
  · exact .inr ⟨rfl, rest, moves⟩
  · left
    rcases writeReg_regAt_cases off w { s with agenda := rest } inSpace aligned with
      ⟨_, _, e⟩ | ⟨rfl, idle, e⟩ | ⟨_, _, e⟩ | ⟨_, e⟩ | ⟨_, e⟩ | ⟨_, e⟩ | ⟨_, e⟩ | e <;> rw [e] at changed ⊢
    case inr.inl => exact ⟨rest, idle, moves⟩
    all_goals exact absurd rfl changed
  · exact absurd keeps.lastCmd changed

/-- Settles O56: the register writes that touch a sticky bit are those of CMD, STATUS and the addresses. -/
theorem stickyBitWriters : Obligations.StickyBitWriters := by
  intro s t h
  rcases step_sticky_cases s t h with ⟨rest, moves, rfl⟩ | ⟨off, w, rest, inSpace, aligned, moves, rfl⟩ | keeps
  · have reset : ∃ rest, s.agenda = .reset :: rest := ⟨rest, moves⟩
    exact ⟨fun _ => nofun, fun _ _ => .inr reset, fun _ => nofun, fun _ => nofun, fun _ => reset⟩
  · rcases writeReg_regAt_cases off w { s with agenda := rest } inSpace aligned with
      ⟨rfl, busy, e⟩ | ⟨_, _, e⟩ | ⟨rfl, set, e⟩ | ⟨rfl, e⟩ | ⟨rfl, e⟩ | ⟨_, e⟩ | ⟨_, e⟩ | e <;> rw [e]
    -- Each write changes at most one of the bits, and its case gives the offset and condition the clause asks for.
    all_goals simp_all
  · obtain ⟨_, hdrop, hsrc, hdst⟩ := keeps
    simp_all

end Sys2Proof.Machine
end

section
/-! What commands read and write of BUF (R45, R80, R174): the range a rule stores to, and the 24 bytes DECODE_NTP reads. -/

namespace Sys2Proof.Machine

/-- MemWrite changes nothing outside the range it writes (R14). -/
theorem State.writeBuf_sameOutside {s u : State} (kept : u.buf = s.buf) (a n : Nat) (bs : List Byte) (len : bs.length = n) :
    SameOutside s.buf (u.writeBuf a bs).buf a n := by
  intro k outside
  rw [State.writeBuf_read?, if_neg (by omega), kept]

theorem ExecNext.sameOutside_stored {s t : State} {i : Instr} (h : ExecNext s i t) :
    SameOutside s.buf t.buf i.stored.1 i.stored.2 := by
  cases h with
  | raised | nop | csum | pcsum | decodeNtp => exact fun _ _ => rfl
  | patch | serIp | serUdp | serPsh | serNtp | zero =>
    rw [State.succeed_buf]
    exact State.writeBuf_sameOutside rfl _ _ _ (by simp [Instr.stored])
  | assemble =>
    rw [State.succeed_buf]
    exact State.writeBuf_sameOutside (State.setSums_buf s _ _ _) _ _ _ (frame_length s _)
  | copy _ _ _ _ _ _ len =>
    rw [State.succeed_buf]
    exact State.writeBuf_sameOutside rfl _ _ _ len

theorem ExecEffect.buf_of_err {s t : State} {i : Instr} (effect : ExecEffect s i t) (failed : t.err = true) :
    t.buf = s.buf := by
  cases effect with
  | raised => rfl
  | stored | summed | assembled | decoded => cases failed

/-- Settles O35: every rule that stores does so by one MemWrite as long as its range, and raising an error stores nothing. -/
theorem memoryFrame : Obligations.MemoryFrame :=
  fun i s t h => ⟨(exec_next i s t h).sameOutside_stored, (exec_next i s t h).effect.buf_of_err⟩

/-- Reading a range depends on the bytes of that range alone, defined or not. -/
theorem Memory.readRange_congr (m m' : Memory) (a n : Nat) (agree : ∀ i, i < n → m'.read? (a + i) = m.read? (a + i)) :
    m'.readRange a n = m.readRange a n := by
  induction n generalizing a with
  | zero => rfl
  | succ n ih =>
    have first : m'.read? a = m.read? a := agree 0 (by omega)
    have others : m'.readRange (a + 1) n = m.readRange (a + 1) n := ih (a + 1) fun i hi => by
      rw [show a + 1 + i = a + (i + 1) by omega]
      exact agree (i + 1) (by omega)
    simp only [Memory.readRange, first, others]

/-- Settles O37: the two reads DECODE_NTP makes answer the same in both memories, and it stores nothing. -/
theorem decodeNtpReadsOnly24Bytes : Obligations.DecodeNtpReadsOnly24Bytes := by
  intro a s m agree
  have head : m.readRange a 16 = s.buf.readRange a 16 := Memory.readRange_congr _ _ a 16 fun i hi => agree i (.inl hi)
  have stamp : m.readRange (a + 40) 8 = s.buf.readRange (a + 40) 8 := Memory.readRange_congr _ _ (a + 40) 8 fun i hi => by
    rw [Nat.add_assoc]
    exact agree (40 + i) (.inr (by omega))
  simp only [exec, execDecodeNtp, withBytes, head, stamp]
  by_cases fits : a + ntpLen ≤ 256
  · simp only [ifFits_of_le _ a ntpLen _ fits]
    cases s.buf.readRange a 16 with
    | none => exact ⟨fun t h => (by cases h), fun r h => h⟩
    | some bytes =>
      cases s.buf.readRange (a + 40) 8 with
      | none => exact ⟨fun t h => (by cases h), fun r h => h⟩
      | some timestamp => exact ⟨fun t h => (by cases h; rfl), fun r h => (by cases h)⟩
  · simp only [ifFits_of_gt _ a ntpLen _ (Nat.lt_of_not_le fits)]
    exact ⟨fun t h => (by cases h; rfl), fun r h => (by cases h)⟩

end Sys2Proof.Machine
end

section
/-! The bytes of a bus value in the order HOST_BUS_ENDIAN gives (R75), over `netBytes` and `netVal`. -/

namespace Sys2Proof.Machine

theorem busOrder_eq_ite (e : Endian) (bs : List Byte) : busOrder e bs = if e = .big then bs else bs.reverse := by
  cases e <;> rfl

@[simp] theorem busOrder_length (e : Endian) (bs : List Byte) : (busOrder e bs).length = bs.length := by
  cases e with
  | big => rfl
  | little => exact List.length_reverse

@[simp] theorem netBytes_length (n v : Nat) : (netBytes n v).length = n := by
  simp [netBytes]

theorem netBytes_getElem? (n v i : Nat) (h : i < n) :
    (netBytes n v)[i]? = some (BitVec.ofNat 8 (v / 256 ^ (n - 1 - i))) := by
  simp [netBytes, h]

/-- Byte i of a 4-byte value in the order of the bus (R75). -/
theorem busOrder_netBytes_getElem? (e : Endian) (v i : Nat) (h : i < 4) :
    (busOrder e (netBytes 4 v))[i]? = some (BitVec.ofNat 8 (if e = .big then v / 256 ^ (3 - i) else v / 256 ^ i)) := by
  cases e with
  | big => exact netBytes_getElem? 4 v i h
  | little =>
    have mirrored : 4 - 1 - (4 - 1 - i) = i := by omega
    rw [busOrder, List.getElem?_reverse (by simpa using h), netBytes_length, netBytes_getElem? 4 v _ (by omega), mirrored]
    rfl

/-- A HOST write puts the bytes of its value into BUF, most significant first on a big-endian bus (R75). -/
theorem bytesOfValue_eq (e : Endian) (width : Width) (v : Word) (fits : v.toNat < 256 ^ width.bytes) :
    bytesOfValue e width v = busOrder e (netBytes width.bytes v.toNat) := by
  cases width with
  | byte =>
    have one : [v.extractLsb' 0 8] = netBytes 1 v.toNat := congrArg (fun b => [b]) (extractLsb'_byte_eq_ofNat_div v 0)
    cases e <;> exact one
  | half =>
    have low : (v.setWidth 16).toNat = v.toNat := (BitVec.toNat_setWidth 16 v).trans (Nat.mod_eq_of_lt fits)
    rw [bytesOfValue, be16_eq_netBytes, low, Width.bytes]
  | word => rw [bytesOfValue, be32_eq_netBytes, Width.bytes]

theorem rd16_eq_netVal (bs : List Byte) (len : bs.length = 2) : (rd16 bs 0).toNat = netVal bs := by
  rw [rd16_toNat_eq_netVal bs 0 (by omega), List.drop_zero, ← len, List.take_length]

theorem rd32_eq_netVal (bs : List Byte) (len : bs.length = 4) : (rd32 bs 0).toNat = netVal bs := by
  rw [rd32_toNat_eq_netVal bs 0 (by omega), List.drop_zero, ← len, List.take_length]

/-- A HOST read returns the number its bytes stand for, most significant first on a big-endian bus (R75). -/
theorem valueOfBytes_eq (e : Endian) (width : Width) (bs : List Byte) (len : bs.length = width.bytes) :
    valueOfBytes e width bs = BitVec.ofNat 32 (netVal (busOrder e bs)) := by
  have ordered := (busOrder_length e bs).trans len
  cases width with
  | byte =>
    obtain ⟨b, rfl⟩ := List.length_eq_one_iff.1 len
    have one : netVal (busOrder e [b]) = b.toNat := by cases e <;> simp [busOrder, netVal]
    rw [one, BitVec.ofNat_toNat]
    rfl
  | half => rw [← rd16_eq_netVal _ ordered, BitVec.ofNat_toNat, valueOfBytes]
  | word => rw [← rd32_eq_netVal _ ordered, BitVec.ofNat_toNat, BitVec.setWidth_eq, valueOfBytes]

end Sys2Proof.Machine
end

section
/-! One BUF access as a step (R75 to R77, R262). -/

namespace Sys2Proof.Machine

/-- An aligned access that starts in BUF ends in it (R75, R76). -/
theorem bufAligned_of_mod (width : Width) (a : Nat) (inBuf : a < 256) (aligned : a % width.bytes = 0) :
    bufAligned width a = true := by
  refine decide_eq_true ⟨aligned, ?_⟩
  cases width <;> simp only [Width.bytes, Config.bufSize] at aligned ⊢ <;> omega

/-- `BUF[a]` stands at window offset 0x100 + a, above the register space (R24). -/
theorem bufBase_offset (a : Nat) : ¬ 0x100 + a < Config.bufBase ∧ 0x100 + a - Config.bufBase = a :=
  ⟨Nat.not_lt.2 (Nat.le_add_right _ a), Nat.add_sub_cancel_left _ a⟩

/-- A HOST read at a BUF offset is one of the BUF window (R24). -/
theorem hostTurn_read_buf (width : Width) (a : Nat) (s : State) (inBuf : a < 256) :
    hostTurn (.read width (Config.base + (0x100 + a))) s = readBufWindow Config.hostBusEndian width a s := by
  obtain ⟨above, offset⟩ := bufBase_offset a
  rw [hostTurn_read _ _ _ (by omega), accessAt, if_neg above, offset]

/-- A HOST write at a BUF offset is one of the BUF window (R24). -/
theorem hostTurn_write_buf (width : Width) (a : Nat) (w : Word) (s : State) (inBuf : a < 256) :
    hostTurn (.write width (Config.base + (0x100 + a)) w) s = writeBufWindow Config.hostBusEndian width a w s := by
  obtain ⟨above, offset⟩ := bufBase_offset a
  rw [hostTurn_write _ _ _ _ (by omega), accessAt, if_neg above, offset]

/-- An aligned BUF read outside the hazard interval, as a step: it hands over its bytes' value, or faults where one is undefined. -/
theorem step_readBuf (s : State) (rest : List Turn) (width : Width) (a : Nat) (inBuf : a < 256)
    (aligned : a % width.bytes = 0) (closed : s.window = false)
    (moves : s.agenda = .host (.read width (Config.base + (0x100 + a))) :: rest) :
    step s = withBytes { s with agenda := rest } a width.bytes fun bs =>
      .next { s with agenda := rest, busData := some (valueOfBytes Config.hostBusEndian width bs) } := by
  rw [step_host s _ rest moves, hostTurn_read_buf width a _ inBuf, readBufWindow,
    if_pos (bufAligned_of_mod width a inBuf aligned), if_neg (by simp [closed])]

/-- A read of a defined byte hands it over, zero-extended (R75). -/
theorem step_readBuf_byte (s : State) (rest : List Turn) (a : Nat) (b : Byte) (inBuf : a < 256) (closed : s.window = false)
    (defined : s.buf.read? a = some b) (moves : s.agenda = .host (.read .byte (Config.base + (0x100 + a))) :: rest) :
    step s = .next { s with agenda := rest, busData := some (b.setWidth 32) } := by
  have holds : HoldsAt s.buf a [b] := fun i hi => by
    obtain rfl : i = 0 := by simpa using hi
    exact defined
  rw [step_readBuf s rest .byte a inBuf (Nat.mod_one a) closed moves,
    withBytes_of_read { s with agenda := rest } a Width.byte.bytes _ [b] rfl holds]
  rfl

/-- An aligned BUF write as a step: it stores, or is a HAZARD in the interval (R262). -/
theorem step_writeBuf (s : State) (rest : List Turn) (width : Width) (a : Nat) (w : Word) (inBuf : a < 256)
    (aligned : a % width.bytes = 0) (moves : s.agenda = .host (.write width (Config.base + (0x100 + a)) w) :: rest) :
    step s = if s.window then .fault .hazard
      else .next (State.writeBuf { s with agenda := rest } a (bytesOfValue Config.hostBusEndian width w)) := by
  rw [step_host s _ rest moves, hostTurn_write_buf width a w _ inBuf, writeBufWindow,
    if_pos (bufAligned_of_mod width a inBuf aligned)]

/-- Outside the interval, the bytes of a value that fits its access are stored in the order of the bus (R75). -/
theorem step_writeBuf_closed (s : State) (rest : List Turn) (width : Width) (a : Nat) (w : Word) (inBuf : a < 256)
    (aligned : a % width.bytes = 0) (closed : s.window = false) (fits : w.toNat < 256 ^ width.bytes)
    (moves : s.agenda = .host (.write width (Config.base + (0x100 + a)) w) :: rest) :
    step s = .next (State.writeBuf { s with agenda := rest } a
      (busOrder Config.hostBusEndian (netBytes width.bytes w.toNat))) := by
  rw [step_writeBuf s rest width a w inBuf aligned moves, if_neg (by simp [closed]), bytesOfValue_eq _ width w fits]

/-- A sequence written to BUF stands there afterwards (R14). -/
theorem State.writeBuf_holdsAt (s : State) (a : Nat) (bs : List Byte) : HoldsAt (s.writeBuf a bs).buf a bs := by
  intro i hi
  rw [State.writeBuf_read?, if_pos (by omega), Nat.add_sub_cancel_left]

/-- Byte i of a 4-byte value stored in the order of the bus stands at the i-th offset from its start (R75). -/
theorem State.writeBuf_word_read? (s : State) (e : Endian) (a v i : Nat) (h : i < 4) :
    (s.writeBuf a (busOrder e (netBytes 4 v))).buf.read? (a + i) =
      some (BitVec.ofNat 8 (if e = .big then v / 256 ^ (3 - i) else v / 256 ^ i)) :=
  (State.writeBuf_holdsAt s a _ i (by simpa using h)).trans (busOrder_netBytes_getElem? e v i h)

/-- Settles O48: outside the interval the access is one MemWrite or one MemRead, of the value's bytes in bus order. -/
theorem bufWindowAccess : Obligations.BufWindowAccess := by
  intro s rest width a w bs inBuf aligned closed fits
  rw [← busOrder_eq_ite]
  refine ⟨fun moves => ⟨_, step_writeBuf_closed s rest width a w inBuf aligned closed fits moves,
    State.writeBuf_holdsAt _ a _, State.writeBuf_sameOutside rfl a _ _ (by simp), rfl⟩, fun moves len holds => ?_⟩
  rw [step_readBuf s rest width a inBuf aligned closed moves, withBytes_of_read { s with agenda := rest } a _ _ bs len holds,
    valueOfBytes_eq _ width bs len, busOrder_eq_ite, apply_ite netVal]

/-- Settles O49: a byte read finds the byte the 4-byte write put there; a read that takes in an undefined byte faults. -/
theorem mixedWidthAccesses : Obligations.MixedWidthAccesses := by
  refine ⟨fun s rest a i w inBuf aligned hi closed moves => ?_, fun s rest width a inBuf aligned closed moves undefined => ?_⟩
  · have write := step_writeBuf_closed s _ .word a w inBuf aligned closed w.isLt moves
    refine ⟨_, _, write, step_readBuf_byte _ rest (a + i) _ (by omega) closed (State.writeBuf_word_read? _ _ a _ i hi) rfl, ?_⟩
    have widened : ∀ n, (BitVec.ofNat 8 n).setWidth 32 = BitVec.ofNat 32 (n % 256) := fun n => by
      apply BitVec.eq_of_toNat_eq
      simp
    rw [widened, apply_ite (· % 256)]
  · rw [step_readBuf s rest width a inBuf aligned closed moves]
    exact withBytes_of_undefined _ _ _ _ undefined

end Sys2Proof.Machine
end

section
/-! Reads have no side effect, and which writes may be repeated (R82). -/

namespace Sys2Proof.Machine

/-- Settles O52: neither kind of HOST read writes a field that is not the model's own. -/
theorem hostReadsHaveNoSideEffect : Obligations.HostReadsHaveNoSideEffect := by
  intro s t rest width addr moves h
  rw [step_host s _ rest moves] at h
  cases hostTurn_cases _ _ t h with
  | readReg | readBuf => rfl

/-- A register write that R262 forbids stops the model. -/
theorem step_writeReg_hazard (s : State) (rest : List Turn) (off : Nat) (w : Word) (inSpace : off < 0x100)
    (aligned : off % 4 = 0) (hazard : (s.window && writeHazard (regAt off)) = true)
    (moves : s.agenda = .host (.write .word (Config.base + off) w) :: rest) : step s = .fault .hazard := by
  rw [step_host s _ rest moves, hostTurn_write _ off _ _ (by omega), accessAt, if_pos (show off < Config.bufBase from inSpace),
    writeRegSpace, if_pos ⟨rfl, aligned⟩, if_pos hazard]

/-- Any register but CMD holds after the second of two equal writes what it held after the first; the turns to come play no part. -/
theorem writeReg_writeReg (r : Reg) (w : Word) (s : State) (rest : List Turn) (notCmd : r ≠ .cmd) :
    writeReg r w { writeReg r w s with agenda := rest } = { writeReg r w s with agenda := rest } := by
  cases r with
  | cmd => exact absurd rfl notCmd
  | status =>
    by_cases clears : w.getLsbD 10 = true
    · simp only [writeReg, writeStatus, if_pos clears]
    · simp only [writeReg, writeStatus, if_neg clears]
  | _ => rfl

/-- Only CMD has a say in the hazard interval. -/
theorem writeReg_window (r : Reg) (w : Word) (s : State) (notCmd : r ≠ .cmd) : (writeReg r w s).window = s.window := by
  rcases writeReg_cases r w s with ⟨h, _⟩ | ⟨h, _⟩ | ⟨_, _, e⟩ | ⟨_, e⟩ | ⟨_, e⟩ | ⟨_, e⟩ | ⟨_, e⟩ | e
  case inl | inr.inl => exact absurd h notCmd
  all_goals rw [e]

theorem writeReg_agenda (r : Reg) (w : Word) (s : State) : (writeReg r w s).agenda = s.agenda := by
  rcases writeReg_cases r w s with ⟨_, _, e⟩ | ⟨_, _, e⟩ | ⟨_, _, e⟩ | ⟨_, e⟩ | ⟨_, e⟩ | ⟨_, e⟩ | ⟨_, e⟩ | e <;> rw [e]
  rfl

/-- Where the first of two equal writes to a register other than CMD completes, the second only takes its turn. -/
theorem step_writeReg_repeated (s t : State) (rest : List Turn) (off : Nat) (w : Word) (inSpace : off < 0x100)
    (aligned : off % 4 = 0) (notCmd : regAt off ≠ .cmd)
    (moves : s.agenda = .host (.write .word (Config.base + off) w) :: .host (.write .word (Config.base + off) w) :: rest)
    (h : step s = .next t) : step t = .next { t with agenda := rest } := by
  by_cases hazard : (s.window && writeHazard (regAt off)) = true
  · rw [step_writeReg_hazard s _ off w inSpace aligned hazard moves] at h
    cases h
  · have noHazard := Bool.eq_false_iff.2 hazard
    rw [step_writeReg s _ off w inSpace aligned noHazard moves] at h
    cases h
    rw [step_writeReg _ rest off w inSpace aligned (by rwa [writeReg_window _ _ _ notCmd]) (writeReg_agenda _ _ _),
      writeReg_writeReg _ _ _ _ notCmd]

theorem Memory.insert_insert_same (m : Memory) (a : Nat) (b : Byte) :
    Memory.insert a b (Memory.insert a b m) = Memory.insert a b m := by
  induction m with
  | nil => simp [Memory.insert]
  | cons c rest ih =>
    obtain ⟨k, v⟩ := c
    by_cases before : a < k
    · simp [Memory.insert, before]
    · by_cases here : a = k
      · simp [Memory.insert, here]
      · simp [Memory.insert, before, here, ih]

/-- Where the first of two equal writes to a BUF byte completes, the second only takes its turn. -/
theorem step_writeBuf_byte_repeated (s t : State) (rest : List Turn) (a : Nat) (w : Word) (inBuf : a < 256)
    (moves : s.agenda = .host (.write .byte (Config.base + (0x100 + a)) w)
      :: .host (.write .byte (Config.base + (0x100 + a)) w) :: rest)
    (h : step s = .next t) : step t = .next { t with agenda := rest } := by
  rw [step_writeBuf s _ .byte a w inBuf (Nat.mod_one a) moves] at h
  split at h
  · cases h
  · rename_i closed
    cases h
    rw [step_writeBuf _ rest .byte a w inBuf (Nat.mod_one a) rfl, State.writeBuf_window, if_neg closed]
    simp only [bytesOfValue, State.writeBuf, Memory.writeRange, Memory.insert_insert_same]

/-- Settles O53: none of the registers named is CMD, and a byte put into BUF twice is put there once. -/
theorem repeatedWriteIsOneWrite : Obligations.RepeatedWriteIsOneWrite := by
  rintro s t rest width off w (⟨rfl, named⟩ | ⟨rfl, low, high⟩) moves h
  · obtain ⟨inSpace, aligned, notCmd⟩ := (by decide : ∀ off ∈ [0x004, 0x010, 0x014, 0x018, 0x01C],
      off < 0x100 ∧ off % 4 = 0 ∧ regAt off ≠ .cmd) off named
    exact step_writeReg_repeated s t rest off w inSpace aligned notCmd moves h
  · obtain ⟨a, rfl⟩ := Nat.exists_eq_add_of_le low
    exact step_writeBuf_byte_repeated s t rest a w (by omega) moves h

end Sys2Proof.Machine
end

section
/-! A command word in its fields: the word is its five fields in R101's layout, and a must-be-zero mask tests whole fields (R104). -/

namespace Sys2Proof

theorem opcode_eq (w : Word) : (fieldOp w).toNat = w.toNat / 2 ^ 28 := by
  rw [fieldOp_toNat]
  omega

theorem fieldA_lt (w : Word) : fieldA w < 256 := (w.extractLsb' 20 8).isLt

theorem fieldB_lt (w : Word) : fieldB w < 256 := (w.extractLsb' 12 8).isLt

theorem fieldL_lt (w : Word) : fieldL w < 512 := (w.extractLsb' 0 9).isLt

/-- With RSV zero a word is its other four fields, packed: `pack_fields` read from the other side (R101). -/
theorem pack_of_fields (w : Word) (rsv : fieldRsv w = 0) :
    pack (fieldOp w).toNat (fieldA w) (fieldB w) (fieldL w) = w := by
  apply BitVec.eq_of_toNat_eq
  rw [pack_toNat _ _ _ _ (fieldOp w).isLt (fieldA_lt w) (fieldB_lt w) (fieldL_lt w), opcode_eq, fieldA_eq, fieldB_eq, fieldL_eq]
  rw [fieldRsv_eq] at rsv
  omega

theorem fieldOp_append (op : BitVec 4) (rest : BitVec 28) : fieldOp (op ++ rest) = op := by
  rw [fieldOp, BitVec.extractLsb'_append_eq_of_le (Nat.le_refl 28)]
  exact BitVec.extractLsb'_eq_self

theorem fieldRest_append (op : BitVec 4) (rest : BitVec 28) : fieldRest (op ++ rest) = rest := by
  rw [fieldRest, BitVec.extractLsb'_append_eq_of_add_le (Nat.le_refl 28)]
  exact BitVec.extractLsb'_eq_self

theorem append_of_fields (w : Word) : fieldOp w ++ fieldRest w = w :=
  BitVec.extractLsb'_append_extractLsb' (w := 4) (len := 28)

/-- The word whose ones are the n bits from bit lo on. -/
def fieldMask (lo n : Nat) : Word := (BitVec.allOnes n).setWidth 32 <<< lo

/-- A mask of consecutive ones tests the field it covers. -/
theorem and_fieldMask_eq_zero_iff (w : Word) (lo n : Nat) : w &&& fieldMask lo n = 0#32 ↔ (w.extractLsb' lo n).toNat = 0 := by
  have bit (k : Nat) : (w &&& fieldMask lo n).getLsbD k = (decide (lo ≤ k) && (w.extractLsb' lo n).getLsbD (k - lo)) := by
    by_cases above : lo ≤ k
    · by_cases inWord : k < 32
      · simp [fieldMask, above, Nat.not_lt.2 above, inWord, Bool.and_comm]
      · simp [above, BitVec.getLsbD_of_ge w k (Nat.not_lt.1 inWord)]
    · simp [fieldMask, above, Nat.not_le.1 above]
  have field : (w.extractLsb' lo n).toNat = 0 ↔ w.extractLsb' lo n = 0#n := by
    rw [← BitVec.toNat_inj, BitVec.toNat_zero]
  rw [field, BitVec.zero_iff_eq_false, BitVec.zero_iff_eq_false]
  constructor
  · intro h k
    simpa [bit] using h (lo + k)
  · intro h k
    rw [bit, h, Bool.and_false]

theorem and_or_eq_zero_iff (w m m' : Word) : w &&& (m ||| m') = 0#32 ↔ w &&& m = 0#32 ∧ w &&& m' = 0#32 := by
  rw [BitVec.and_or_distrib_left]
  exact BitVec.or_eq_zero_iff

/-- A field put below a shifted word that leaves room for it is added. -/
theorem shiftLeft_or_field_toNat (x : Word) (n field : Nat) (hn : n < 32) (room : x.toNat * 2 ^ n < 2 ^ 32)
    (fits : field < 2 ^ n) : (x <<< n ||| BitVec.ofNat 32 field).toNat = x.toNat * 2 ^ n + field := by
  have value : (BitVec.ofNat 32 field).toNat = field :=
    Nat.mod_eq_of_lt (fits.trans (Nat.pow_lt_pow_right Nat.one_lt_two hn))
  rw [Machine.or_shiftLeft_toNat x _ n room (value.symm ▸ fits), value]

/-- Settles O3: in Horner's form each field is put below the ones already shifted, where OR adds (R101, R13). -/
theorem packIsShiftedFields : Obligations.PackIsShiftedFields := by
  intro op a b l hop ha hb hl
  apply BitVec.eq_of_toNat_eq
  have horner : BitVec.ofNat 32 op <<< 28 ||| BitVec.ofNat 32 a <<< 20 ||| BitVec.ofNat 32 b <<< 12 ||| BitVec.ofNat 32 l =
      ((BitVec.ofNat 32 op <<< 8 ||| BitVec.ofNat 32 a) <<< 8 ||| BitVec.ofNat 32 b) <<< 12 ||| BitVec.ofNat 32 l := by
    simp only [BitVec.shiftLeft_or_distrib, ← BitVec.shiftLeft_add]
  have opValue : (BitVec.ofNat 32 op).toNat = op := Nat.mod_eq_of_lt (by omega)
  have upper : (BitVec.ofNat 32 op <<< 8 ||| BitVec.ofNat 32 a).toNat = op * 2 ^ 8 + a := by
    rw [shiftLeft_or_field_toNat, opValue] <;> omega
  have middle : ((BitVec.ofNat 32 op <<< 8 ||| BitVec.ofNat 32 a) <<< 8 ||| BitVec.ofNat 32 b).toNat =
      (op * 2 ^ 8 + a) * 2 ^ 8 + b := by
    rw [shiftLeft_or_field_toNat, upper] <;> omega
  rw [horner, pack_toNat op a b l hop ha hb hl, shiftLeft_or_field_toNat, middle] <;> omega

end Sys2Proof
end

section
/-! R103's rows with R104's must-be-zero fields, and what the decoder, the encoder and the well-formedness check make of a row. -/

namespace Sys2Proof

/-- An assigned opcode's row for a word with fields A, B, RSV and L: the fields that must be zero and the command. `decode_of_row`
and `decode_of_reserved` tie it to the decoder. -/
inductive Row (a b rsv l : Nat) : Nat → List Nat → Instr → Prop where
  | nop : Row a b rsv l 0x0 [a, b, rsv, l] .nop
  | csum : Row a b rsv l 0x1 [b, rsv] (.csum a l)
  | pcsum : Row a b rsv l 0x2 [b, rsv] (.pcsum a l)
  | patch : Row a b rsv l 0x3 [b, rsv, l] (.patch a)
  | serIp : Row a b rsv l 0x4 [b, rsv, l] (.serIp a)
  | serUdp : Row a b rsv l 0x5 [b, rsv, l] (.serUdp a)
  | serPsh : Row a b rsv l 0x6 [b, rsv, l] (.serPsh a)
  | serNtp : Row a b rsv l 0x7 [b, rsv, l] (.serNtp a)
  | assemble : Row a b rsv l 0x8 [b, rsv, l] (.assemble a)
  | decodeNtp : Row a b rsv l 0x9 [b, rsv, l] (.decodeNtp a)
  | copy : Row a b rsv l 0xA [rsv] (.copy a b l)
  | zero : Row a b rsv l 0xB [b, rsv] (.zero a l)

/-- The decoder on a word with an assigned opcode is its row's must-be-zero test (R100 step 2). -/
theorem decode_of_row {w : Word} {fs : List Nat} {i : Instr}
    (row : Row (fieldA w) (fieldB w) (fieldRsv w) (fieldL w) (fieldOp w).toNat fs i) : decode w = requireZero w fs i := by
  unfold decode
  generalize (fieldOp w).toNat = op at row
  cases row <;> rfl

/-- A reserved opcode is no row: the word is kept whole (R105, log 15). -/
theorem decode_of_reserved {w : Word} (h : 12 ≤ (fieldOp w).toNat) :
    decode w = .instr (.reserved (fieldOp w) (fieldRest w)) := by
  unfold decode
  split
  case h_13 => rfl
  all_goals omega

theorem exists_row (a b rsv l op : Nat) (h : op < 12) : ∃ fs i, Row a b rsv l op fs i := by
  match op, h with
  | 0x0, _ => exact ⟨_, _, .nop⟩
  | 0x1, _ => exact ⟨_, _, .csum⟩
  | 0x2, _ => exact ⟨_, _, .pcsum⟩
  | 0x3, _ => exact ⟨_, _, .patch⟩
  | 0x4, _ => exact ⟨_, _, .serIp⟩
  | 0x5, _ => exact ⟨_, _, .serUdp⟩
  | 0x6, _ => exact ⟨_, _, .serPsh⟩
  | 0x7, _ => exact ⟨_, _, .serNtp⟩
  | 0x8, _ => exact ⟨_, _, .assemble⟩
  | 0x9, _ => exact ⟨_, _, .decodeNtp⟩
  | 0xA, _ => exact ⟨_, _, .copy⟩
  | 0xB, _ => exact ⟨_, _, .zero⟩

namespace Row

variable {a b rsv l op : Nat} {fs : List Nat} {i : Instr}

theorem isReserved (row : Row a b rsv l op fs i) : i.isReserved = false := by
  cases row <;> rfl

theorem wf (row : Row a b rsv l op fs i) (ha : a < 256) (hb : b < 256) (hl : l < 512) : i.wf = true := by
  cases row <;> simp [Instr.wf, offsetOk, lengthOk, ha, hb, hl]

theorem rsv_mem (row : Row a b rsv l op fs i) : rsv ∈ fs := by
  cases row <;> simp

/-- The encoder puts zero exactly where the row asks for it (R108). -/
theorem encode_eq_pack (row : Row a b rsv l op fs i) (zeros : ∀ f ∈ fs, f = 0) : encode i = pack op a b l := by
  cases row <;> simp only [List.forall_mem_cons] at zeros <;> simp [encode, zeros]

/-- Every well-formed command of the twelve comes from a row, with the fields it does not use zero (R103, R108). -/
theorem exists_of_wf (wf : i.wf = true) (assigned : i.isReserved = false) :
    ∃ op a b l fs, op < 16 ∧ a < 256 ∧ b < 256 ∧ l < 512 ∧ Row a b 0 l op fs i ∧ ∀ f ∈ fs, f = 0 := by
  cases i with simp only [Instr.wf, offsetOk, lengthOk, Bool.and_eq_true, decide_eq_true_eq] at wf
  | reserved => cases assigned
  | nop => exact ⟨_, 0, 0, 0, _, by decide, by decide, by decide, by decide, .nop, by simp⟩
  | csum a l => exact ⟨_, a, 0, l, _, by decide, by omega, by omega, by omega, .csum, by simp⟩
  | pcsum a l => exact ⟨_, a, 0, l, _, by decide, by omega, by omega, by omega, .pcsum, by simp⟩
  | patch a => exact ⟨_, a, 0, 0, _, by decide, by omega, by omega, by omega, .patch, by simp⟩
  | serIp a => exact ⟨_, a, 0, 0, _, by decide, by omega, by omega, by omega, .serIp, by simp⟩
  | serUdp a => exact ⟨_, a, 0, 0, _, by decide, by omega, by omega, by omega, .serUdp, by simp⟩
  | serPsh a => exact ⟨_, a, 0, 0, _, by decide, by omega, by omega, by omega, .serPsh, by simp⟩
  | serNtp a => exact ⟨_, a, 0, 0, _, by decide, by omega, by omega, by omega, .serNtp, by simp⟩
  | assemble a => exact ⟨_, a, 0, 0, _, by decide, by omega, by omega, by omega, .assemble, by simp⟩
  | decodeNtp a => exact ⟨_, a, 0, 0, _, by decide, by omega, by omega, by omega, .decodeNtp, by simp⟩
  | copy a b l => exact ⟨_, a, b, l, _, by decide, by omega, by omega, by omega, .copy, by simp⟩
  | zero a l => exact ⟨_, a, 0, l, _, by decide, by omega, by omega, by omega, .zero, by simp⟩

/-- R104's mask for an opcode tests the fields its row names. -/
theorem mask_iff {w : Word} (row : Row (fieldA w) (fieldB w) (fieldRsv w) (fieldL w) op fs i) :
    w &&& mustBeZeroMask op = 0 ↔ ∀ f ∈ fs, f = 0 := by
  simp only [fieldA, fieldB, fieldRsv, fieldL] at row
  cases row with
  | nop =>
    change w &&& (fieldMask 20 8 ||| (fieldMask 12 8 ||| (fieldMask 9 3 ||| fieldMask 0 9))) = 0#32 ↔ _
    simp [and_or_eq_zero_iff, and_fieldMask_eq_zero_iff, -BitVec.extractLsb'_toNat]
  | csum | pcsum | zero =>
    change w &&& (fieldMask 12 8 ||| fieldMask 9 3) = 0#32 ↔ _
    simp [and_or_eq_zero_iff, and_fieldMask_eq_zero_iff, -BitVec.extractLsb'_toNat]
  | patch | serIp | serUdp | serPsh | serNtp | assemble | decodeNtp =>
    change w &&& (fieldMask 12 8 ||| (fieldMask 9 3 ||| fieldMask 0 9)) = 0#32 ↔ _
    simp [and_or_eq_zero_iff, and_fieldMask_eq_zero_iff, -BitVec.extractLsb'_toNat]
  | copy =>
    change w &&& fieldMask 9 3 = 0#32 ↔ _
    simp [and_fieldMask_eq_zero_iff, -BitVec.extractLsb'_toNat]

end Row

theorem decode_of_assigned {w : Word} (h : (fieldOp w).toNat < 12) :
    ∃ fs i, Row (fieldA w) (fieldB w) (fieldRsv w) (fieldL w) (fieldOp w).toNat fs i ∧ decode w = requireZero w fs i := by
  obtain ⟨fs, i, row⟩ := exists_row (fieldA w) (fieldB w) (fieldRsv w) (fieldL w) _ h
  exact ⟨fs, i, row, decode_of_row row⟩

theorem decode_encode_of_assigned {i : Instr} (wf : i.wf = true) (assigned : i.isReserved = false) :
    decode (encode i) = .instr i := by
  obtain ⟨op, a, b, l, fs, hop, ha, hb, hl, row, zeros⟩ := Row.exists_of_wf wf assigned
  obtain ⟨fop, fa, fb, frsv, fl⟩ := pack_fields op a b l hop ha hb hl
  rw [row.encode_eq_pack zeros, decode_of_row (fs := fs) (i := i) (by rwa [fop, fa, fb, frsv, fl]), requireZero_eq_instr_iff]
  exact ⟨zeros, rfl⟩

theorem decode_encode_reserved {op : BitVec 4} (rest : BitVec 28) (wf : reservedOk op = true) :
    decode (op ++ rest) = .instr (.reserved op rest) := by
  rw [decode_of_reserved (by rw [fieldOp_append]; exact of_decide_eq_true wf), fieldOp_append, fieldRest_append]

/-- Settles O1: a reserved word keeps its two parts, and every other command is read back through its row. -/
theorem decodeOfEncode : Obligations.DecodeOfEncode := by
  intro i wf
  cases assigned : i.isReserved with
  | false => exact decode_encode_of_assigned wf assigned
  | true =>
    cases i with
    | reserved op rest => exact decode_encode_reserved rest wf
    | _ => cases assigned

/-- Settles O2: the command's row puts the word's fields back where they were read, RSV being among the tested fields. -/
theorem encodeOfDecode : Obligations.EncodeOfDecode := by
  intro w i decoded
  rcases Nat.lt_or_ge (fieldOp w).toNat 12 with assigned | reserved
  · obtain ⟨fs, j, row, tested⟩ := decode_of_assigned assigned
    obtain ⟨zeros, rfl⟩ := (requireZero_eq_instr_iff w fs j i).1 (tested ▸ decoded)
    exact ⟨row.wf (fieldA_lt w) (fieldB_lt w) (fieldL_lt w),
      (row.encode_eq_pack zeros).trans (pack_of_fields w (zeros _ row.rsv_mem))⟩
  · rw [decode_of_reserved reserved] at decoded
    cases decoded
    exact ⟨decide_eq_true reserved, append_of_fields w⟩

/-- Settles O4: each word is decoded by running the decoder. -/
theorem specWordsDecode : Obligations.SpecWordsDecode := by
  unfold Obligations.SpecWordsDecode
  decide

end Sys2Proof
end

section
/-! Words that stand for no command raise ILLEGAL (R105). -/

namespace Sys2Proof.Machine

theorem exec_reserved (op : BitVec 4) (rest : BitVec 28) (s : State) : exec (.reserved op rest) s = .next (s.raise .illegal) :=
  rfl

theorem executeWord_of_reserved {w : Word} (h : 12 ≤ (fieldOp w).toNat) (s : State) :
    executeWord w s = .next (s.raise .illegal) := by
  rw [executeWord, decode_of_reserved h]
  exact exec_reserved _ _ s

/-- A word whose row asks for a zero field that is not zero raises ILLEGAL. -/
theorem executeWord_of_requireZero {w : Word} {fs : List Nat} {i : Instr} (decoded : decode w = requireZero w fs i)
    (nonzero : ¬ ∀ f ∈ fs, f = 0) (s : State) : executeWord w s = .next (s.raise .illegal) := by
  have refused : requireZero w fs i = .illegal (.mustBeZero (fieldOp w)) := by
    rw [requireZero, if_neg (by simpa using nonzero)]
  rw [executeWord, decoded, refused]

/-- Settles O5: the row of an assigned opcode decides whether its mask lets the word through. -/
theorem unassignedWordsRaiseIllegal : Obligations.UnassignedWordsRaiseIllegal := by
  intro w
  rw [← opcode_eq]
  rcases Nat.lt_or_ge (fieldOp w).toNat 12 with assigned | reserved
  · obtain ⟨fs, i, row, decoded⟩ := decode_of_assigned assigned
    refine ⟨fun illegal s => ?_, fun _ masked => ⟨i, row.isReserved, ?_⟩⟩
    · have nonzero := illegal.resolve_left (by omega)
      exact executeWord_of_requireZero decoded (mt row.mask_iff.2 nonzero) s
    · rw [decoded, requireZero_eq_instr_iff]
      exact ⟨row.mask_iff.1 masked, rfl⟩
  · exact ⟨fun _ s => executeWord_of_reserved reserved s, fun assigned => by omega⟩

/-- Settles O26: the reserved row keeps the word's two parts (log 15), and its execution is `exec_reserved`. -/
theorem reservedRaisesIllegal : Obligations.ReservedRaisesIllegal := by
  refine ⟨fun w reserved => ?_, exec_reserved⟩
  have opPart : BitVec.ofNat 4 (w.toNat / 2 ^ 28) = fieldOp w := by
    rw [← opcode_eq, BitVec.ofNat_toNat, BitVec.setWidth_eq]
  have restPart : BitVec.ofNat 28 w.toNat = fieldRest w :=
    BitVec.eq_of_toNat_eq (by rw [fieldRest_toNat, BitVec.toNat_ofNat])
  rw [opPart, restPart]
  exact decode_of_reserved (opcode_eq w ▸ reserved)

end Sys2Proof.Machine
end

section
/-! The checksum function as arithmetic (R131 to R133): the accumulator is a sum of words, folding is reduction mod 65535. -/

namespace Sys2Proof.Machine

/-- Word k of a byte sequence, a byte past the end being 0 (R131). -/
def wordAt (s : List Byte) (k : Nat) : Nat := 256 * (s.getD (2 * k) 0).toNat + (s.getD (2 * k + 1) 0).toNat

/-- The exact sum of a byte sequence's words; `csumAcc_toNat` ties it to R131's accumulator. -/
def wordSum (s : List Byte) : Nat := ((List.range ((s.length + 1) / 2)).map (wordAt s)).sum

@[simp] theorem wordSum_nil : wordSum [] = 0 := rfl

theorem wordSum_singleton (b : Byte) : wordSum [b] = 256 * b.toNat := by
  simp [wordSum, wordAt]

@[simp] theorem wordSum_cons_cons (hi lo : Byte) (rest : List Byte) :
    wordSum (hi :: lo :: rest) = 256 * hi.toNat + lo.toNat + wordSum rest := by
  have words : ((hi :: lo :: rest).length + 1) / 2 = (rest.length + 1) / 2 + 1 := by
    simp only [List.length_cons]
    omega
  rw [wordSum, words, List.range_succ_eq_map, List.map_cons, List.sum_cons, List.map_map]
  rfl

theorem pairWord_toNat (hi lo : Byte) : (pairWord hi lo).toNat = 256 * hi.toNat + lo.toNat := by
  rw [pairWord, BitVec.toNat_setWidth_of_le (by decide), toNat_append_byte]

theorem csumAccFrom_toNat (acc : Word) (s : List Byte) :
    (csumAccFrom acc s).toNat = (acc.toNat + wordSum s) % 2 ^ 32 := by
  induction acc, s using csumAccFrom.induct with
  | case1 acc => simp [csumAccFrom, Nat.mod_eq_of_lt acc.isLt]
  | case2 acc b => rw [csumAccFrom, BitVec.toNat_add, pairWord_toNat, wordSum_singleton]; rfl
  | case3 acc hi lo rest ih =>
    rw [csumAccFrom, ih, BitVec.toNat_add, pairWord_toNat, wordSum_cons_cons, Nat.mod_add_mod, Nat.add_assoc]

theorem csumAcc_toNat (s : List Byte) : (csumAcc s).toNat = wordSum s % 2 ^ 32 := by
  have start : (0 : Word).toNat = 0 := rfl
  rw [csumAcc, csumAccFrom_toNat, start, Nat.zero_add]

/-- Settles O8: R131's loop adds one word per turn, which is the sum's next term. -/
theorem accIsWordSum : Obligations.AccIsWordSum := csumAcc_toNat

theorem wordAt_le (s : List Byte) (k : Nat) : wordAt s k ≤ 65535 := by
  have hi := (s.getD (2 * k) 0).isLt
  have lo := (s.getD (2 * k + 1) 0).isLt
  rw [wordAt]
  omega

theorem wordSum_le (s : List Byte) : wordSum s ≤ (s.length + 1) / 2 * 65535 := by
  have bound := List.sum_le_card_nsmul ((List.range ((s.length + 1) / 2)).map (wordAt s)) 65535
    (by simpa using fun k _ => wordAt_le s k)
  simpa [wordSum] using bound

/-- Within R136's bound the accumulator loses no carry: 65,537 words of at most 0xFFFF stay below 2^32. -/
theorem csumAcc_toNat_of_length_le {s : List Byte} (short : s.length ≤ 131074) : (csumAcc s).toNat = wordSum s := by
  have bound := wordSum_le s
  rw [csumAcc_toNat, Nat.mod_eq_of_lt (by omega)]

/-- Settles O12: as many words of at most 0xFFFF as the sequence is long. -/
theorem accumulatorNeverWraps : Obligations.AccumulatorNeverWraps := by
  refine ⟨fun s short => ?_, fun s short => csumAcc_toNat_of_length_le short⟩
  have bound := wordSum_le s
  rw [csumAcc_toNat_of_length_le (by omega)]
  omega

theorem highHalf_toNat (v : Word) : (highHalf v).toNat = v.toNat / 65536 := by
  rw [highHalf, BitVec.toNat_ushiftRight, Nat.shiftRight_eq_div_pow]

theorem lowHalf_toNat (v : Word) : (lowHalf v).toNat = v.toNat % 65536 := by
  rw [lowHalf, BitVec.toNat_and]
  exact Nat.and_two_pow_sub_one_eq_mod v.toNat 16

theorem highHalf_eq_zero_iff (v : Word) : highHalf v = 0 ↔ v.toNat < 65536 := by
  rw [← BitVec.toNat_inj, highHalf_toNat]
  exact Nat.div_eq_zero_iff_lt (by decide)

theorem foldStep_toNat (v : Word) : (foldStep v).toNat = v.toNat / 65536 + v.toNat % 65536 := by
  have hv := v.isLt
  rw [foldStep, BitVec.toNat_add, highHalf_toNat, lowHalf_toNat]
  omega

theorem foldLoop_of_lt {v : Word} (short : v.toNat < 65536) (n : Nat) : foldLoop n v = v := by
  cases n with
  | zero => rfl
  | succ n => rw [foldLoop, if_pos ((highHalf_eq_zero_iff v).2 short)]

/-- R132's test is no case of its own: where it ends the loop, the loop's body would change nothing. -/
theorem foldLoop_succ (n : Nat) (v : Word) : foldLoop (n + 1) v = foldLoop n (foldStep v) := by
  rw [foldLoop]
  split
  · rename_i high
    have short := (highHalf_eq_zero_iff v).1 high
    have fixed : foldStep v = v := BitVec.eq_of_toNat_eq (by rw [foldStep_toNat]; omega)
    rw [fixed, foldLoop_of_lt short]
  · rfl

/-- The first turn leaves at most 0x1FFFE, so the second leaves at most 0xFFFF. -/
theorem foldStep_foldStep_lt (v : Word) : (foldStep (foldStep v)).toNat < 65536 := by
  have hv := v.isLt
  rw [foldStep_toNat, foldStep_toNat]
  omega

theorem foldLoop_add_two (n : Nat) (v : Word) : foldLoop (n + 2) v = foldStep (foldStep v) := by
  rw [foldLoop_succ, foldLoop_succ, foldLoop_of_lt (foldStep_foldStep_lt v)]

theorem fold_toNat_eq_foldStep (v : Word) : (fold v).toNat = (foldStep (foldStep v)).toNat := by
  rw [fold, foldLoop_add_two 0, BitVec.toNat_setWidth, Nat.mod_eq_of_lt (foldStep_foldStep_lt v)]

/-- Settles O9: after two turns the value fits 16 bits, where the loop stops. -/
theorem foldEndsInTwoTurns : Obligations.FoldEndsInTwoTurns := by
  intro v n two
  obtain ⟨k, rfl⟩ := Nat.exists_eq_add_of_le' two
  rw [foldLoop_add_two k, foldLoop_add_two 0]
  exact ⟨(highHalf_eq_zero_iff _).2 (foldStep_foldStep_lt v), rfl, fold_toNat_eq_foldStep v⟩

/-- A turn of the loop keeps the value mod 65535 and keeps it nonzero, and two turns end in 16 bits. -/
theorem fold_toNat (v : Word) : (fold v).toNat = if v.toNat = 0 then 0 else (v.toNat - 1) % 65535 + 1 := by
  have hv := v.isLt
  rw [fold_toNat_eq_foldStep, foldStep_toNat, foldStep_toNat]
  split <;> omega

theorem checksum_toNat_eq_fold (s : List Byte) : (checksum s).toNat = 0xFFFF - (fold (csumAcc s)).toNat :=
  BitVec.toNat_not

/-- Settles O10: folding is `fold_toNat`, and complementing 16 bits is subtracting from 0xFFFF. -/
theorem checksumIsOnesComplement : Obligations.ChecksumIsOnesComplement :=
  ⟨fold_toNat, checksum_toNat_eq_fold, by decide⟩

/-- Within R136's bound the checksum is a function of the words' exact sum. -/
theorem checksum_toNat {s : List Byte} (short : s.length ≤ 131074) :
    (checksum s).toNat = 0xFFFF - if wordSum s = 0 then 0 else (wordSum s - 1) % 65535 + 1 := by
  rw [checksum_toNat_eq_fold, fold_toNat, csumAcc_toNat_of_length_le short]

/-- Words do not straddle the boundary after a sequence of even length. -/
theorem wordSum_append (s t : List Byte) (even : s.length % 2 = 0) : wordSum (s ++ t) = wordSum s + wordSum t := by
  induction s using List.twoStepInduction with
  | nil => rw [List.nil_append, wordSum_nil, Nat.zero_add]
  | singleton b => simp at even
  | cons_cons hi lo rest ih _ =>
    have evenRest : rest.length % 2 = 0 := by
      simp only [List.length_cons] at even
      omega
    rw [List.cons_append, List.cons_append, wordSum_cons_cons, wordSum_cons_cons, ih evenRest]
    omega

theorem wordSum_netBytes (v : Half) : wordSum (netBytes 2 v.toNat) = v.toNat := by
  rw [← be16_eq_netBytes, be16, wordSum_cons_cons, wordSum_nil, ← toNat_append_byte]
  exact congrArg BitVec.toNat (rd16_be16 v)

/-- A 2-byte field at an even position contributes its own value to the sum. -/
theorem wordSum_field (before field after : List Byte) (even : before.length % 2 = 0) (two : field.length = 2) :
    wordSum (before ++ field ++ after) = wordSum before + wordSum field + wordSum after := by
  rw [wordSum_append _ after (by rw [List.length_append]; omega), wordSum_append _ field even]

/-- Settles O11: with the field zeroed the sum is N and the checksum c makes N + c a positive multiple of 65535. -/
theorem patchedChecksumVerifies : Obligations.PatchedChecksumVerifies := by
  intro before after even short
  have fits (field : List Byte) (two : field.length = 2) : (before ++ field ++ after).length ≤ 131074 := by
    rwa [List.length_append, List.length_append, two]
  have zeroed := wordSum_field before [0x00, 0x00] after even rfl
  have sum := checksum_toNat (fits [0x00, 0x00] rfl)
  generalize checksum (before ++ [0x00, 0x00] ++ after) = c at sum ⊢
  have patched := wordSum_field before (netBytes 2 c.toNat) after even (netBytes_length 2 _)
  rw [wordSum_netBytes] at patched
  have zeroField : wordSum [0x00, 0x00] = 0 := rfl
  apply BitVec.eq_of_toNat_eq
  rw [checksum_toNat (fits _ (netBytes_length 2 _))]
  change _ = 0
  split at sum <;> split <;> omega

/-- The words of a sequence of pairs, high bytes and low bytes summed apart. -/
theorem wordSum_pairs {α : Type} (hi lo : α → Byte) (ps : List α) :
    wordSum (ps.flatMap fun p => [hi p, lo p]) =
      256 * (ps.map fun p => (hi p).toNat).sum + (ps.map fun p => (lo p).toNat).sum := by
  induction ps with
  | nil => simp
  | cons p ps ih =>
    simp only [List.flatMap_cons, List.cons_append, List.nil_append, wordSum_cons_cons, List.map_cons, List.sum_cons, ih]
    omega

theorem extractLsb'_swap_toNat (v : Half) :
    (v.extractLsb' 0 8 ++ v.extractLsb' 8 8).toNat = 256 * (v.toNat % 256) + v.toNat / 256 := by
  have hv := v.isLt
  rw [toNat_append_byte, BitVec.extractLsb'_toNat, BitVec.extractLsb'_toNat, Nat.shiftRight_zero, Nat.shiftRight_eq_div_pow]
  omega

/-- Settles O13: with A and B the sums of the high and the low bytes, 256 · (256 · A + B) is 256 · B + A mod 65535, and
multiplying by 256 mod 65535 swaps the bytes of a value in 1 to 65535, hence of its complement. -/
theorem byteSwapSymmetry : Obligations.ByteSwapSymmetry := by
  intro ps few
  have short (hi lo : Byte × Byte → Byte) : (ps.flatMap fun p => [hi p, lo p]).length ≤ 131074 := by
    have len : (ps.flatMap fun p => [hi p, lo p]).length = ps.length * 2 := by simp
    omega
  apply BitVec.eq_of_toNat_eq
  rw [extractLsb'_swap_toNat, checksum_toNat (short (·.2) (·.1)), checksum_toNat (short (·.1) (·.2)), wordSum_pairs,
    wordSum_pairs]
  split <;> split <;> omega

end Sys2Proof.Machine
end

section
/-! What a row of R104's table says of a word, with the row's mask and match in front of the must-be-zero fields. -/

namespace Sys2Proof

theorem requireZero_of_nonzero {w : Word} {fs : List Nat} (i : Instr) (nonzero : ¬ ∀ f ∈ fs, f = 0) :
    requireZero w fs i = .illegal (.mustBeZero (fieldOp w)) := by
  rw [requireZero, if_neg (by simpa using nonzero)]

/-- Masking with OP's bits leaves OP in its place (R101). -/
theorem and_opMask (w : Word) : w &&& 0xF0000000#32 = BitVec.ofNat 32 (w.toNat / 2 ^ 28) <<< 28 := by
  have op : BitVec.ofNat 32 (w.toNat / 2 ^ 28) = w >>> 28 :=
    BitVec.eq_of_toNat_eq (by rw [BitVec.toNat_ushiftRight, Nat.shiftRight_eq_div_pow, BitVec.toNat_ofNat]; omega)
  rw [op, BitVec.shiftLeft_ushiftRight]
  rfl

/-- R104 asks nothing of OP's own bits. -/
theorem opMask_and_mustBeZeroMask (op : Nat) : 0xF0000000#32 &&& mustBeZeroMask op = 0#32 := by
  unfold mustBeZeroMask
  split <;> rfl

/-- With its opcode given, a word passes the row's mask and match exactly when the row's must-be-zero bits are zero. -/
theorem and_rowMask_iff (w : Word) (op : Nat) (opcode : w.toNat / 2 ^ 28 = op) :
    w &&& (0xF0000000#32 ||| mustBeZeroMask op) = BitVec.ofNat 32 op <<< 28 ↔ w &&& mustBeZeroMask op = 0#32 := by
  have opPart : w &&& 0xF0000000#32 = BitVec.ofNat 32 op <<< 28 := opcode ▸ and_opMask w
  constructor
  · intro passes
    have absorbed : (0xF0000000#32 ||| mustBeZeroMask op) &&& mustBeZeroMask op = mustBeZeroMask op := by
      rw [BitVec.and_comm, BitVec.and_or_distrib_left, BitVec.and_comm, opMask_and_mustBeZeroMask, BitVec.and_self,
        BitVec.zero_or]
    calc w &&& mustBeZeroMask op
        = w &&& (0xF0000000#32 ||| mustBeZeroMask op) &&& mustBeZeroMask op := by rw [BitVec.and_assoc, absorbed]
      _ = w &&& (0xF0000000#32 &&& mustBeZeroMask op) := by rw [passes, ← opPart, BitVec.and_assoc]
      _ = 0#32 := by rw [opMask_and_mustBeZeroMask, BitVec.and_zero]
  · intro zero
    rw [BitVec.and_or_distrib_left, opPart, zero, BitVec.or_zero]

/-- A row of `Row`, read with its mask and match, is a row of R104's table. -/
theorem rowDecodes_of_row {op : Nat} {mask pattern : Word} {fs : Nat → Nat → Nat → Nat → List Nat}
    {command : Nat → Nat → Nat → Instr} (row : ∀ a b rsv l, Row a b rsv l op (fs a b rsv l) (command a b l))
    (hmask : mask = 0xF0000000#32 ||| mustBeZeroMask op) (hpattern : pattern = BitVec.ofNat 32 op <<< 28) :
    RowDecodes op mask pattern command := by
  intro w opcode
  have rowOf := row (fieldA w) (fieldB w) (fieldRsv w) (fieldL w)
  have decoded := decode_of_row (((opcode_eq w).trans opcode).symm ▸ rowOf)
  have passes := (and_rowMask_iff w op opcode).trans rowOf.mask_iff
  rw [hmask, hpattern, ← fieldA_eq, ← fieldB_eq, ← fieldL_eq, ne_eq, passes, decoded]
  exact ⟨fun zeros => (requireZero_eq_instr_iff _ _ _ _).2 ⟨zeros, rfl⟩, fun nonzero => ⟨_, requireZero_of_nonzero _ nonzero⟩⟩

end Sys2Proof
end

section
/-! The checksum commands CSUM, PCSUM and PATCH (R145 to R147), one outcome per check they make. -/

namespace Sys2Proof.Machine

/-- Settles O15: the range check, then one read, then `setChecksum`. -/
theorem csumWritesChecksumOfRange : Obligations.CsumWritesChecksumOfRange := by
  refine ⟨rowDecodes_of_row (fun _ _ _ _ => .csum) rfl rfl, fun a l s => ⟨ifFits_of_gt s a l _, fun fits undefined => ?_,
    fun bs fits len holds => ?_⟩⟩
  · exact (ifFits_of_le s a l _ fits).trans (withBytes_of_undefined s a l _ undefined)
  · exact (ifFits_of_le s a l _ fits).trans (withBytes_of_read s a l _ bs len holds)

/-- Settles O17: the range check, then one MemWrite of RESULT's two bytes. -/
theorem patchWritesResult : Obligations.PatchWritesResult := by
  refine ⟨rowDecodes_of_row (fun _ _ _ _ => .patch) rfl rfl, fun a s => ⟨ifFits_of_gt s a 2 _, fun fits => ?_⟩⟩
  refine ⟨_, ifFits_of_le s a 2 _ fits, ?_, State.writeBuf_sameOutside rfl a 2 _ (be16_length s.result), rfl⟩
  rw [← be16_eq_netBytes]
  exact State.writeBuf_holdsAt s a _

/-- A slice of a sequence that stands in BUF stands there too. -/
theorem holdsAt_slice {m : Memory} {a : Nat} {bs : List Byte} (holds : HoldsAt m a bs) (k n : Nat) :
    HoldsAt m (a + k) ((bs.drop k).take n) := by
  intro i hi
  rw [List.length_take, List.length_drop] at hi
  rw [Nat.add_assoc, holds (k + i) (by omega), List.getElem?_take_of_lt (by omega), List.getElem?_drop]

theorem pseudoHeader_eq_wirePseudo (s : State) (n : Nat) (fits : n < 65536) :
    pseudoHeader s (BitVec.ofNat 16 n) = wirePseudo s n := by
  rw [pseudoHeader, be32_eq_netBytes, be32_eq_netBytes, be16_eq_netBytes, BitVec.toNat_ofNat, Nat.mod_eq_of_lt fits]
  rfl

section
variable {a l : Nat} {s : State}

/-- With its range in BUF and both addresses valid, PCSUM is R146's rule from the length checks on. -/
theorem exec_pcsum_of_checks (fits : a + l ≤ 256) (src : s.srcValid = true) (dst : s.dstValid = true) :
    exec (.pcsum a l) s = if l < 8 then .next (s.raise .length)
      else withBytes s (a + 4) 2 fun field =>
        if (rd16 field 0).toNat = l then
          withBytes s a l fun segment => .next (s.setChecksum (pseudoHeader s (BitVec.ofNat 16 l) ++ segment)).succeed
        else .next (s.raise .length) :=
  (ifFits_of_le s a l _ fits).trans (ifResolved_of_valid s _ src dst)

variable (fits : a + l ≤ 256) (src : s.srcValid = true) (dst : s.dstValid = true) (min : 8 ≤ l)
include fits src dst min

theorem exec_pcsum_of_undefined_field (undefined : HasUndefined s.buf (a + 4) 2) :
    exec (.pcsum a l) s = .fault .undefinedByte := by
  rw [exec_pcsum_of_checks fits src dst, if_neg (by omega)]
  exact withBytes_of_undefined s (a + 4) 2 _ undefined

variable {field : List Byte} (two : field.length = 2) (holds : HoldsAt s.buf (a + 4) field)
include two holds

/-- A length field other than L is LENGTH, whatever the rest of the segment holds (log 20). -/
theorem exec_pcsum_of_length_ne (wrong : netVal field ≠ l) : exec (.pcsum a l) s = .next (s.raise .length) := by
  rw [exec_pcsum_of_checks fits src dst, if_neg (by omega), withBytes_of_read s (a + 4) 2 _ field two holds,
    rd16_eq_netVal field two, if_neg wrong]

/-- With the length field L, PCSUM reads the segment and sums it after the pseudo-header. -/
theorem exec_pcsum_of_length_eq (right : netVal field = l) :
    exec (.pcsum a l) s =
      withBytes s a l fun segment => .next (s.setChecksum (wirePseudo s l ++ segment)).succeed := by
  rw [exec_pcsum_of_checks fits src dst, if_neg (by omega), withBytes_of_read s (a + 4) 2 _ field two holds,
    rd16_eq_netVal field two, if_pos right, pseudoHeader_eq_wirePseudo s l (by omega)]

end

theorem netVal_pair (hi lo : Byte) : netVal [hi, lo] = 256 * hi.toNat + lo.toNat := by
  simp [netVal]

/-- Settles O16: the checks in R146's order, then the length field, then the segment. -/
theorem pcsumWritesPseudoHeaderChecksum : Obligations.PcsumWritesPseudoHeaderChecksum := by
  refine ⟨rowDecodes_of_row (fun _ _ _ _ => .pcsum) rfl rfl, fun a l s => ⟨ifFits_of_gt s a l _, fun fits invalid => ?_,
    fun fits src dst short => ?_, fun hi lo fits src dst min holds wrong => ?_, exec_pcsum_of_undefined_field,
    fun hi lo fits src dst min holds right undefined => ?_, fun bs fits src dst min len holds right => ?_⟩⟩
  · exact (ifFits_of_le s a l _ fits).trans (ifResolved_of_not_valid s _ invalid)
  · exact (exec_pcsum_of_checks fits src dst).trans (if_pos short)
  · exact exec_pcsum_of_length_ne fits src dst min rfl holds (netVal_pair hi lo ▸ wrong)
  · rw [exec_pcsum_of_length_eq fits src dst min rfl holds ((netVal_pair hi lo).trans right)]
    exact withBytes_of_undefined s a l _ undefined
  · have two : ((bs.drop 4).take 2).length = 2 := by
      rw [List.length_take, List.length_drop]
      omega
    rw [exec_pcsum_of_length_eq fits src dst min two (holdsAt_slice holds 4 2) right, withBytes_of_read s a l _ bs len holds]
    rfl

end Sys2Proof.Machine
end

section
/-! The wire layouts of R162 to R168 as the claims write them out, and the commands that serialize them (R170 to R173). -/

namespace Sys2Proof.Machine

/-- A number put below a shifted one that leaves room for it is added: `or_shiftLeft_toNat` at any width. -/
theorem shiftLeft_or_toNat {w : Nat} (x y : BitVec w) (n : Nat) (room : x.toNat * 2 ^ n < 2 ^ w) (fits : y.toNat < 2 ^ n) :
    (x <<< n ||| y).toNat = x.toNat * 2 ^ n + y.toNat := by
  rw [BitVec.toNat_or, BitVec.toNat_shiftLeft, Nat.shiftLeft_eq, Nat.mod_eq_of_lt room, ← Nat.shiftLeft_eq,
    ← Nat.shiftLeft_add_eq_or_of_lt fits]

/-- In Horner's form each field of the status byte is put below the ones already shifted, where OR adds (R168). -/
theorem ntpStatusPack_toNat (li vn mode : Byte) (hli : li.toNat < 4) (hvn : vn.toNat < 8) (hmode : mode.toNat < 8) :
    (ntpStatusPack li vn mode).toNat = 64 * li.toNat + 8 * vn.toNat + mode.toNat := by
  have horner : ntpStatusPack li vn mode = (li <<< 3 ||| vn) <<< 3 ||| mode := by
    rw [ntpStatusPack, BitVec.shiftLeft_or_distrib, ← BitVec.shiftLeft_add]
  have upper : (li <<< 3 ||| vn).toNat = li.toNat * 2 ^ 3 + vn.toNat := by
    rw [shiftLeft_or_toNat] <;> omega
  rw [horner, shiftLeft_or_toNat, upper] <;> omega

theorem ntpStatusPack_client : ntpStatusPack 0 3 3 = 0x1B := by decide

/-- Settles O27: packing adds because the fields do not overlap, unpacking is one quotient and remainder per field. -/
theorem ntpStatusByte : Obligations.NtpStatusByte := by
  refine ⟨fun li vn mode => ?_, fun b => ⟨ntpLeap_toNat b, ntpVersion_toNat b, ntpMode_toNat b⟩, ntpStatusPack_client⟩
  have hli : (li.setWidth 8).toNat = li.toNat := BitVec.toNat_setWidth_of_le (by decide)
  have hvn : (vn.setWidth 8).toNat = vn.toNat := BitVec.toNat_setWidth_of_le (by decide)
  have hmode : (mode.setWidth 8).toNat = mode.toNat := BitVec.toNat_setWidth_of_le (by decide)
  rw [ntpStatusPack_toNat, hli, hvn, hmode]
  · exact hli ▸ li.isLt
  · exact hvn ▸ vn.isLt
  · exact hmode ▸ mode.isLt

theorem ipHeader_eq_wireIp (s : State) (c : Half) : ipHeader s c = wireIp s c := by
  rw [ipHeader, be32_eq_netBytes, be32_eq_netBytes, be16_eq_netBytes s.ipId, be16_eq_netBytes c]
  rfl

theorem udpHeader_eq_wireUdp (s : State) (c : Half) : udpHeader s c = wireUdp s c := by
  rw [udpHeader, be16_eq_netBytes s.srcPort, be16_eq_netBytes c]
  rfl

theorem ntpRequest_eq_wireNtp : ntpRequest = wireNtp := by
  rw [ntpRequest, ntpStatusPack_client]
  rfl

/-- What a command that stores n bytes and changes nothing else ends with (R14, R100 step 6). -/
theorem succeed_writeBuf_effect (s : State) (a : Nat) {n : Nat} {bs : List Byte} (len : bs.length = n) :
    HoldsAt (s.writeBuf a bs).succeed.buf a bs ∧ SameOutside s.buf (s.writeBuf a bs).succeed.buf a n ∧
      { (s.writeBuf a bs).succeed with buf := s.buf } = { s with err := false, errcode := 0 } :=
  ⟨State.writeBuf_holdsAt s a bs, State.writeBuf_sameOutside rfl a n bs len, rfl⟩

/-- Settles O18: the two checks in R170's order, then one MemWrite of R162's header. -/
theorem serIpWritesHeader : Obligations.SerIpWritesHeader := by
  refine ⟨rowDecodes_of_row (fun _ _ _ _ => .serIp) rfl rfl, fun a s => ⟨ifFits_of_gt s a 20 _, fun fits invalid => ?_,
    fun fits src dst => ?_⟩⟩
  · exact (ifFits_of_le s a 20 _ fits).trans (ifResolved_of_not_valid s _ invalid)
  · rw [← ipHeader_eq_wireIp]
    obtain ⟨holds, outside, others⟩ := succeed_writeBuf_effect s a (ipHeader_length s 0x0000)
    exact ⟨_, (ifFits_of_le s a 20 _ fits).trans (ifResolved_of_valid s _ src dst), holds, ipHeader_length s _, outside, others⟩

/-- Settles O19: the range check alone, then one MemWrite of R164's header. -/
theorem serUdpWritesHeader : Obligations.SerUdpWritesHeader := by
  refine ⟨rowDecodes_of_row (fun _ _ _ _ => .serUdp) rfl rfl, fun a s => ⟨ifFits_of_gt s a 8 _, fun fits => ?_⟩⟩
  rw [← udpHeader_eq_wireUdp]
  obtain ⟨holds, outside, others⟩ := succeed_writeBuf_effect s a (udpHeader_length s 0x0000)
  exact ⟨_, ifFits_of_le s a 8 _ fits, holds, udpHeader_length s _, outside, others⟩

/-- Settles O20: the two checks in R172's order, then one MemWrite of R166's pseudo-header for UDP_LEN. -/
theorem serPshWritesPseudoHeader : Obligations.SerPshWritesPseudoHeader := by
  refine ⟨rowDecodes_of_row (fun _ _ _ _ => .serPsh) rfl rfl, fun a s => ⟨ifFits_of_gt s a 12 _, fun fits invalid => ?_,
    fun fits src dst => ?_⟩⟩
  · exact (ifFits_of_le s a 12 _ fits).trans (ifResolved_of_not_valid s _ invalid)
  · rw [← pseudoHeader_eq_wirePseudo s 56 (by decide)]
    obtain ⟨holds, outside, others⟩ := succeed_writeBuf_effect s a (pseudoHeader_length s 56)
    exact ⟨_, (ifFits_of_le s a 12 _ fits).trans (ifResolved_of_valid s _ src dst), holds, pseudoHeader_length s _, outside,
      others⟩

/-- Settles O21: the range check alone, then one MemWrite of R167's request. -/
theorem serNtpWritesRequest : Obligations.SerNtpWritesRequest := by
  refine ⟨rowDecodes_of_row (fun _ _ _ _ => .serNtp) rfl rfl, fun a s => ⟨ifFits_of_gt s a 48 _, fun fits => ?_⟩⟩
  change ∃ t : State, _ ∧ HoldsAt t.buf a wireNtp ∧ _
  rw [← ntpRequest_eq_wireNtp]
  exact ⟨_, ifFits_of_le s a 48 _ fits, succeed_writeBuf_effect s a ntpRequest_length⟩

end Sys2Proof.Machine
end

section
/-! DECODE_NTP (R174, R175): its two reads, and the registers it writes as numbers of the message. -/

namespace Sys2Proof.Machine

theorem rd32_eq_ofNat_netVal {s : List Byte} {i : Nat} (fits : i + 4 ≤ s.length) :
    rd32 s i = BitVec.ofNat 32 (netVal ((s.drop i).take 4)) := by
  rw [← rd32_toNat_eq_netVal s i fits, BitVec.ofNat_toNat, BitVec.setWidth_eq]

theorem netVal_take_one {s : List Byte} (nonempty : 1 ≤ s.length) : netVal (s.take 1) = (byteAt s 0).toNat := by
  rw [← List.drop_zero (l := s), take_drop_eq_map_byteAt s 0 1 (by omega)]
  simp [netVal]

theorem ntpUnpackWord_eq_ofNat (b : Byte) :
    ntpUnpackWord b = BitVec.ofNat 32 (2 ^ 16 * (b.toNat / 64) + 2 ^ 8 * (b.toNat / 8 % 8) + b.toNat % 8) := by
  rw [← ntpUnpackWord_toNat, BitVec.ofNat_toNat, BitVec.setWidth_eq]

/-- The epoch difference wraps mod 2^32 (R175). -/
theorem unixSeconds_eq_ofNat (secs : Word) :
    unixSeconds secs = BitVec.ofNat 32 ((secs.toNat + 2 ^ 32 - 2208988800) % 2 ^ 32) := by
  apply BitVec.eq_of_toNat_eq
  rw [unixSeconds, ntpUnixOffset, BitVec.toNat_sub, BitVec.toNat_ofNat, BitVec.toNat_ofNat]
  omega

/-- What DECODE_NTP writes, over the message's bytes as numbers in network order (R174, R175). -/
theorem setNtp_succeed_eq (s : State) {h t : List Byte} (lenH : h.length = 16) (lenT : t.length = 8) :
    (s.setNtp h t).succeed = { s with
      ntpW0 := BitVec.ofNat 32 (netVal (h.take 4))
      ntpUnpack := BitVec.ofNat 32
        (2 ^ 16 * (netVal (h.take 1) / 64) + 2 ^ 8 * (netVal (h.take 1) / 8 % 8) + netVal (h.take 1) % 8)
      ntpW1 := BitVec.ofNat 32 (netVal ((h.drop 4).take 4))
      ntpW2 := BitVec.ofNat 32 (netVal ((h.drop 8).take 4))
      ntpW3 := BitVec.ofNat 32 (netVal ((h.drop 12).take 4))
      ntpTxSecs := BitVec.ofNat 32 (netVal (t.take 4))
      ntpTxFrac := BitVec.ofNat 32 (netVal ((t.drop 4).take 4))
      unixSecs := BitVec.ofNat 32 ((netVal (t.take 4) + 2 ^ 32 - 2208988800) % 2 ^ 32)
      borrow := decide (netVal (t.take 4) < 2208988800)
      err := false
      errcode := 0 } := by
  have w0 : BitVec.ofNat 32 (netVal (h.take 4)) = rd32 h 0 := (rd32_eq_ofNat_netVal (i := 0) (by omega)).symm
  have secs : netVal (t.take 4) = (rd32 t 0).toNat := (rd32_toNat_eq_netVal t 0 (by omega)).symm
  rw [w0, netVal_take_one (by omega), ← ntpUnpackWord_eq_ofNat, ← rd32_eq_ofNat_netVal (i := 4) (by omega),
    ← rd32_eq_ofNat_netVal (i := 8) (by omega), ← rd32_eq_ofNat_netVal (i := 12) (by omega),
    ← rd32_eq_ofNat_netVal (i := 4) (by omega), secs, ← unixSeconds_eq_ofNat, BitVec.ofNat_toNat, BitVec.setWidth_eq]
  rfl

/-- A command whose later steps fault in any case faults, whether or not its first read does. -/
theorem withBytes_fault (s : State) (a n : Nat) :
    withBytes s a n (fun _ => .fault .undefinedByte) = .fault .undefinedByte := by
  unfold withBytes
  split <;> rfl

/-- Settles O23: the range check, R174's two reads, and then `setNtp`. -/
theorem decodeNtpWritesFields : Obligations.DecodeNtpWritesFields := by
  refine ⟨rowDecodes_of_row (fun _ _ _ _ => .decodeNtp) rfl rfl, fun a s => ⟨ifFits_of_gt s a 48 _, fun fits undefined => ?_,
    fun h t status secs fits lenH lenT holdsH holdsT hstatus hsecs => ?_⟩⟩
  · refine (ifFits_of_le s a 48 _ fits).trans ?_
    rcases undefined with head | stamp
    · exact withBytes_of_undefined s a 16 _ head
    · simp only [withBytes_of_undefined s (a + 40) 8 _ stamp, withBytes_fault]
  · subst hstatus hsecs
    rw [← setNtp_succeed_eq s lenH lenT]
    refine (ifFits_of_le s a 48 _ fits).trans ?_
    rw [withBytes_of_read s a 16 _ h lenH holdsH, withBytes_of_read s (a + 40) 8 _ t lenT holdsT]

end Sys2Proof.Machine
end

section
/-! NOP, ZERO, COPY and ASSEMBLE (R201, R207 to R209), one outcome per check they make. -/

namespace Sys2Proof.Machine

/-- Settles O14: NOP has no rule of its own, so only step 6 of R100 is left of it. -/
theorem nopClearsErrorOnly : Obligations.NopClearsErrorOnly :=
  ⟨rowDecodes_of_row (fun _ _ _ _ => .nop) rfl rfl, fun _ => rfl⟩

/-- Settles O25: the range check alone, then one MemWrite of zeros, which no byte's definedness enters. -/
theorem zeroClearsBytes : Obligations.ZeroClearsBytes := by
  refine ⟨rowDecodes_of_row (fun _ _ _ _ => .zero) rfl rfl, fun a l s => ⟨ifFits_of_gt s a l _, fun fits => ?_⟩⟩
  exact ⟨_, ifFits_of_le s a l _ fits, succeed_writeBuf_effect s a (zeros_length l)⟩

/-- With both ranges in BUF, COPY is one read and one MemWrite after it. -/
theorem exec_copy_of_fits {a b l : Nat} (s : State) (fitsA : a + l ≤ 256) (fitsB : b + l ≤ 256) :
    exec (.copy a b l) s = withBytes s b l fun bs => .next (s.writeBuf a bs).succeed :=
  (ifFits_of_le s a l _ fitsA).trans (ifFits_of_le s b l _ fitsB)

theorem exec_copy_of_holdsAt {a b l : Nat} {s : State} {bs : List Byte} (fitsA : a + l ≤ 256) (fitsB : b + l ≤ 256)
    (len : bs.length = l) (holds : HoldsAt s.buf b bs) : exec (.copy a b l) s = .next (s.writeBuf a bs).succeed :=
  (exec_copy_of_fits s fitsA fitsB).trans (withBytes_of_read s b l _ bs len holds)

theorem exec_copy_of_not_fits {a b l : Nat} (s : State) (outside : 256 < a + l ∨ 256 < b + l) :
    exec (.copy a b l) s = .next (s.raise .range) := by
  by_cases fitsA : a + l ≤ 256
  · exact (ifFits_of_le s a l _ fitsA).trans (ifFits_of_gt s b l _ (by omega))
  · exact ifFits_of_gt s a l _ (by omega)

/-- Settles O24: the two range checks raise the same error, and the whole source is read before the one MemWrite. -/
theorem copyMovesBytes : Obligations.CopyMovesBytes := by
  refine ⟨rowDecodes_of_row (fun _ _ _ _ => .copy) rfl rfl, fun a b l s => ⟨exec_copy_of_not_fits s,
    fun fitsA fitsB undefined => ?_, fun bs fitsA fitsB len holds => ?_⟩⟩
  · exact (exec_copy_of_fits s fitsA fitsB).trans (withBytes_of_undefined s b l _ undefined)
  · exact ⟨_, exec_copy_of_holdsAt fitsA fitsB len holds, succeed_writeBuf_effect s a len⟩

/-- The state a successful ASSEMBLE at a ends in (R201); `exec_assemble` ties it to the command. -/
def State.assembled (s : State) (a : Nat) : State :=
  ((s.setSums (frameUdpCsum s) (frameIpCsum s) (csumAcc (frame s 0x0000))).writeBuf a (frame s (frameIpCsum s))).succeed

theorem exec_assemble {a : Nat} {s : State} (fits : a + 76 ≤ 256) (src : s.srcValid = true) (dst : s.dstValid = true) :
    exec (.assemble a) s = .next (s.assembled a) :=
  (ifFits_of_le s a 76 _ fits).trans (ifResolved_of_valid s _ src dst)

theorem State.assembled_holdsAt (s : State) (a : Nat) : HoldsAt (s.assembled a).buf a (frame s (frameIpCsum s)) := by
  rw [State.assembled, State.succeed_buf]
  exact State.writeBuf_holdsAt _ a _

theorem State.assembled_sameOutside (s : State) (a : Nat) : SameOutside s.buf (s.assembled a).buf a 76 := by
  rw [State.assembled, State.succeed_buf]
  exact State.writeBuf_sameOutside (State.setSums_buf s _ _ _) a 76 _ (frame_length s _)

theorem State.succeed_writeBuf_setSums_registers (s : State) (a : Nat) (ucs ics : Half) (acc : Word) (bs : List Byte) :
    { ((s.setSums ucs ics acc).writeBuf a bs).succeed with buf := s.buf } =
      { s with udpCsum := ucs, ipCsum := ics, result := ics, acc := acc, err := false, errcode := 0 } :=
  rfl

/-- What the UDP checksum is over when the header's checksum field is c (R201 steps 1 to 4). -/
def udpSumInput (s : State) (c : Half) : List Byte :=
  pseudoHeader s (BitVec.ofNat 16 udpLen) ++ udpHeader s c ++ ntpRequest

theorem frameUdpCsum_eq_checksum (s : State) : frameUdpCsum s = checksum (udpSumInput s 0x0000) := rfl

theorem udpSumInput_eq_wire (s : State) (c : Half) : udpSumInput s c = wirePseudo s 56 ++ wireUdp s c ++ wireNtp := by
  rw [← pseudoHeader_eq_wirePseudo s 56 (by decide), ← udpHeader_eq_wireUdp, ← ntpRequest_eq_wireNtp]
  rfl

theorem frame_eq_wire (s : State) (c : Half) : frame s c = wireIp s c ++ wireUdp s (frameUdpCsum s) ++ wireNtp := by
  rw [frame, ipHeader_eq_wireIp, udpHeader_eq_wireUdp, ntpRequest_eq_wireNtp]

/-- Settles O22: the two checks in R201's order, then the sums and one MemWrite of the frame. -/
theorem assembleWritesFrame : Obligations.AssembleWritesFrame := by
  refine ⟨rowDecodes_of_row (fun _ _ _ _ => .assemble) rfl rfl, fun a s => ⟨ifFits_of_gt s a 76 _, fun fits invalid => ?_,
    fun ucs ics f fits src dst hucs hf hics => ?_⟩⟩
  · exact (ifFits_of_le s a 76 _ fits).trans (ifResolved_of_not_valid s _ invalid)
  · obtain rfl : ucs = frameUdpCsum s := by rw [hucs, ← udpSumInput_eq_wire, frameUdpCsum_eq_checksum]
    obtain rfl : f = frame s 0x0000 := hf.trans (frame_eq_wire s 0x0000).symm
    obtain rfl : ics = frameIpCsum s := hics
    rw [← frame_eq_wire]
    exact ⟨_, exec_assemble fits src dst, s.assembled_holdsAt a, frame_length s _, s.assembled_sameOutside a,
      State.succeed_writeBuf_setSums_registers s a _ _ _ _⟩

end Sys2Proof.Machine
end

section
/-! Sequences that stand in BUF, kept and joined by MemWrite, and the 2-byte checksum field of a layout (R134, R201). -/

namespace Sys2Proof.Machine

theorem holdsAt_append_iff (m : Memory) (a : Nat) (bs cs : List Byte) :
    HoldsAt m a (bs ++ cs) ↔ HoldsAt m a bs ∧ HoldsAt m (a + bs.length) cs := by
  constructor
  · intro holds
    refine ⟨fun i hi => ?_, fun i hi => ?_⟩
    · rw [holds i (by rw [List.length_append]; omega), List.getElem?_append_left hi]
    · rw [Nat.add_assoc, holds _ (by rw [List.length_append]; omega), List.getElem?_append_right (by omega),
        Nat.add_sub_cancel_left]
  · rintro ⟨first, second⟩ i hi
    rw [List.length_append] at hi
    rcases Nat.lt_or_ge i bs.length with inFirst | inSecond
    · rw [first i inFirst, List.getElem?_append_left inFirst]
    · obtain ⟨j, rfl⟩ := Nat.exists_eq_add_of_le inSecond
      rw [← Nat.add_assoc, second j (by omega), List.getElem?_append_right inSecond, Nat.add_sub_cancel_left]

section
variable {s : State} {a : Nat} {bs cs : List Byte}

/-- A sequence outside the range MemWrite writes stays (R14). -/
theorem State.writeBuf_holdsAt_of_apart {b : Nat} (apart : b + cs.length ≤ a ∨ a + bs.length ≤ b)
    (holds : HoldsAt s.buf b cs) : HoldsAt (s.writeBuf a bs).buf b cs := fun i hi => by
  rw [State.writeBuf_sameOutside rfl a _ bs rfl (b + i) (by omega), holds i hi]

/-- A sequence written right before another is joined to it. -/
theorem State.writeBuf_holdsAt_before (holds : HoldsAt s.buf (a + bs.length) cs) :
    HoldsAt (s.writeBuf a bs).buf a (bs ++ cs) :=
  (holdsAt_append_iff _ a bs cs).2 ⟨State.writeBuf_holdsAt s a bs, State.writeBuf_holdsAt_of_apart (.inr (Nat.le_refl _)) holds⟩

/-- A sequence written right after another is joined to it. -/
theorem State.writeBuf_holdsAt_after (holds : HoldsAt s.buf a bs) :
    HoldsAt (s.writeBuf (a + bs.length) cs).buf a (bs ++ cs) :=
  (holdsAt_append_iff _ a bs cs).2 ⟨State.writeBuf_holdsAt_of_apart (.inl (Nat.le_refl _)) holds, State.writeBuf_holdsAt s _ cs⟩

end

/-- A layout whose 2-byte field at offset k holds the layout's argument, and the same bytes around it for every argument. -/
def FieldAt (layout : Half → List Byte) (k : Nat) : Prop :=
  ∃ before after, before.length = k ∧ ∀ c, layout c = before ++ be16 c ++ after

/-- The IP checksum's field in the frame (R162). -/
theorem frame_fieldAt (s : State) : FieldAt (frame s) 10 :=
  ⟨(ipHeader s 0).take 10, (ipHeader s 0).drop 12 ++ udpHeader s (frameUdpCsum s) ++ ntpRequest, rfl, fun _ => rfl⟩

/-- The UDP checksum's field in what it is over (R164, R166). -/
theorem udpSumInput_fieldAt (s : State) : FieldAt (udpSumInput s) 18 :=
  ⟨pseudoHeader s (BitVec.ofNat 16 udpLen) ++ (udpHeader s 0).take 6, ntpRequest, rfl, fun _ => rfl⟩

@[simp] theorem udpSumInput_length (s : State) (c : Half) : (udpSumInput s c).length = 68 := rfl

namespace FieldAt

variable {layout : Half → List Byte} {k : Nat} (field : FieldAt layout k)
include field

/-- R134 for a layout's checksum field. -/
theorem checksum_patched (even : k % 2 = 0) (short : (layout 0x0000).length ≤ 131074) :
    checksum (layout (checksum (layout 0x0000))) = 0x0000 := by
  obtain ⟨before, after, rfl, hlayout⟩ := field
  have zeroed : layout 0x0000 = before ++ [0x00, 0x00] ++ after := hlayout 0x0000
  rw [zeroed, List.length_append, List.length_append] at short
  rw [hlayout (checksum _), zeroed, be16_eq_netBytes]
  exact patchedChecksumVerifies before after even short

/-- MemWrite of the field alone turns the layout with one field value into that with another. -/
theorem writeBuf_holdsAt {s : State} {a : Nat} {c : Half} (d : Half) (holds : HoldsAt s.buf a (layout c)) :
    HoldsAt (s.writeBuf (a + k) (be16 d)).buf a (layout d) := by
  obtain ⟨before, after, rfl, hlayout⟩ := field
  simp only [hlayout, holdsAt_append_iff, List.length_append, be16_length] at holds ⊢
  obtain ⟨⟨holdsBefore, -⟩, holdsAfter⟩ := holds
  refine ⟨⟨State.writeBuf_holdsAt_of_apart (.inl (Nat.le_refl _)) holdsBefore, State.writeBuf_holdsAt s _ _⟩,
    State.writeBuf_holdsAt_of_apart (.inr ?_) holdsAfter⟩
  rw [be16_length, Nat.add_assoc]

end FieldAt

theorem exec_csum_of_holdsAt {a l : Nat} {s : State} {bs : List Byte} (fits : a + l ≤ 256) (len : bs.length = l)
    (holds : HoldsAt s.buf a bs) : exec (.csum a l) s = .next (s.setChecksum bs).succeed :=
  (ifFits_of_le s a l _ fits).trans (withBytes_of_read s a l _ bs len holds)

end Sys2Proof.Machine
end

section
/-! The assembled frame: both its checksums verify (R204), and it depends on the four input registers only (R205). -/

namespace Sys2Proof.Machine

/-- Two states with the same input registers of ASSEMBLE (R205). -/
structure SameInputs (s t : State) : Prop where
  srcAddr : t.srcAddr = s.srcAddr
  dstAddr : t.dstAddr = s.dstAddr
  srcPort : t.srcPort = s.srcPort
  ipId : t.ipId = s.ipId

namespace SameInputs

variable {s t : State} (same : SameInputs s t)
include same

theorem pseudoHeader_eq (n : Half) : pseudoHeader t n = pseudoHeader s n := by
  rw [pseudoHeader, pseudoHeader, same.srcAddr, same.dstAddr]

theorem udpHeader_eq (c : Half) : udpHeader t c = udpHeader s c := by
  rw [udpHeader, udpHeader, same.srcPort]

theorem ipHeader_eq (c : Half) : ipHeader t c = ipHeader s c := by
  rw [ipHeader, ipHeader, same.ipId, same.srcAddr, same.dstAddr]

theorem frameUdpCsum_eq : frameUdpCsum t = frameUdpCsum s := by
  rw [frameUdpCsum, frameUdpCsum, same.pseudoHeader_eq, same.udpHeader_eq]

theorem frame_eq (c : Half) : frame t c = frame s c := by
  rw [frame, frame, same.ipHeader_eq, same.frameUdpCsum_eq, same.udpHeader_eq]

theorem frameIpCsum_eq : frameIpCsum t = frameIpCsum s := by
  rw [frameIpCsum, frameIpCsum, same.frame_eq]

end SameInputs

theorem KeepsHostSide.sameInputs {s t : State} (keeps : KeepsHostSide s t) : SameInputs s t :=
  ⟨keeps.srcAddr, keeps.dstAddr, keeps.srcPort, keeps.ipId⟩

/-- The UDP part of the assembled frame stands 20 bytes into it. -/
theorem State.assembled_holdsAt_udp (s : State) (a : Nat) :
    HoldsAt (s.assembled a).buf (a + 20) (udpHeader s (frameUdpCsum s) ++ ntpRequest) := by
  have holds := s.assembled_holdsAt a
  rw [frame, List.append_assoc] at holds
  exact ((holdsAt_append_iff _ a _ _).1 holds).2

/-- The UDP header's length field, 4 bytes into it, holds UDP_LEN (R164). -/
theorem netVal_udpLength (s : State) (c : Half) (rest : List Byte) :
    netVal (((udpHeader s c ++ rest).drop 4).take 2) = 56 := by
  have field : ((udpHeader s c ++ rest).drop 4).take 2 = [0x00, 0x38] := rfl
  rw [field, netVal_pair]
  rfl

theorem State.assembled_keepsHostSide {a : Nat} {s : State} (fits : a + 76 ≤ 256) (src : s.srcValid = true)
    (dst : s.dstValid = true) : KeepsHostSide s (s.assembled a) :=
  (exec_next _ _ _ (exec_assemble fits src dst)).effect.keepsHostSide

/-- PCSUM over the UDP part sums what the UDP checksum was over, with that checksum in its field. -/
theorem exec_pcsum_assembled {a : Nat} {s : State} (fits : a + 76 ≤ 256) (src : s.srcValid = true)
    (dst : s.dstValid = true) : exec (.pcsum (a + 20) 56) (s.assembled a) =
      .next ((s.assembled a).setChecksum (udpSumInput s (frameUdpCsum s))).succeed := by
  have len : (udpHeader s (frameUdpCsum s) ++ ntpRequest).length = 56 := by simp
  have holds := s.assembled_holdsAt_udp a
  have keeps := State.assembled_keepsHostSide fits src dst
  have input : wirePseudo (s.assembled a) 56 = pseudoHeader s (BitVec.ofNat 16 udpLen) := by
    rw [← pseudoHeader_eq_wirePseudo _ 56 (by decide), keeps.sameInputs.pseudoHeader_eq]
    rfl
  rw [exec_pcsum_of_length_eq (by omega) (keeps.srcValid.trans src) (keeps.dstValid.trans dst) (by decide) (by simp)
    (holdsAt_slice holds 4 2) (netVal_udpLength s _ _), withBytes_of_read _ _ _ _ _ len holds, input, udpSumInput,
    List.append_assoc]

/-- A checksum of 0x0000 is RESULT = 0x0000 and Z = 1 (R204). -/
theorem State.setChecksum_verifies (s : State) {bs : List Byte} (verifies : checksum bs = 0x0000) :
    (s.setChecksum bs).succeed.result = 0x0000 ∧ (s.setChecksum bs).succeed.z = true :=
  ⟨verifies, decide_eq_true verifies⟩

/-- Settles O28: each sum is over a layout with its own checksum patched into it, which R134 says verifies. -/
theorem assembledFrameVerifies : Obligations.AssembledFrameVerifies := by
  intro a s fits src dst
  have ip : checksum (frame s (frameIpCsum s)) = 0x0000 := (frame_fieldAt s).checksum_patched rfl (by simp)
  have udp : checksum (udpSumInput s (frameUdpCsum s)) = 0x0000 := (udpSumInput_fieldAt s).checksum_patched rfl (by simp)
  obtain ⟨ipResult, ipZ⟩ := (s.assembled a).setChecksum_verifies ip
  obtain ⟨udpResult, udpZ⟩ := (s.assembled a).setChecksum_verifies udp
  exact ⟨_, _, _, exec_assemble fits src dst, exec_csum_of_holdsAt fits (frame_length s _) (s.assembled_holdsAt a), ipResult,
    ipZ, exec_pcsum_assembled fits src dst, udpResult, udpZ⟩

/-- Settles O29: the frame and both checksums are functions of the four registers. -/
theorem assembleIsIdempotent : Obligations.AssembleIsIdempotent := by
  intro a b s s' fitsA fitsB src dst src' dst' hsrc hdst hport hid
  have same : SameInputs s s' := ⟨hsrc, hdst, hport, hid⟩
  refine ⟨_, _, exec_assemble fitsA src dst, exec_assemble fitsB src' dst', fun k hk => ?_, same.frameUdpCsum_eq,
    same.frameIpCsum_eq, same.frameIpCsum_eq, congrArg csumAcc (same.frame_eq 0x0000)⟩
  rw [s.assembled_holdsAt a k hk, s'.assembled_holdsAt b k hk, same.frameIpCsum_eq, same.frame_eq]

end Sys2Proof.Machine
end

section
/-! The primitive commands in the source's step order (R206): a sum is put into its field twice, once in the scratch area and once
in the frame. -/

namespace Sys2Proof.Machine

theorem KeepsHostSide.trans {s t u : State} (first : KeepsHostSide s t) (second : KeepsHostSide t u) : KeepsHostSide s u where
  lastCmd := second.lastCmd.trans first.lastCmd
  pending := second.pending.trans first.pending
  srcValid := second.srcValid.trans first.srcValid
  dstValid := second.dstValid.trans first.dstValid
  drop := second.drop.trans first.drop
  srcAddr := second.srcAddr.trans first.srcAddr
  dstAddr := second.dstAddr.trans first.dstAddr
  srcPort := second.srcPort.trans first.srcPort
  ipId := second.ipId.trans first.ipId
  window := second.window.trans first.window
  busData := second.busData.trans first.busData
  lastPoll := second.lastPoll.trans first.lastPoll
  agenda := second.agenda.trans first.agenda

theorem execAll_cons {i : Instr} {s t : State} (h : exec i s = .next t) (rest : List Instr) :
    execAll (i :: rest) s = execAll rest t := by
  rw [execAll, h]

theorem execAll_append {first : List Instr} {s t : State} (h : execAll first s = .next t) (rest : List Instr) :
    execAll (first ++ rest) s = execAll rest t := by
  induction first generalizing s with
  | nil => cases h; rfl
  | cons i first ih =>
    cases he : exec i s with
    | next u =>
      rw [execAll_cons he] at h
      rw [List.cons_append, execAll_cons he, ih h]
    | fault | refused => rw [execAll, he] at h; cases h

theorem execAll_keepsHostSide {commands : List Instr} {s t : State} (h : execAll commands s = .next t) :
    KeepsHostSide s t := by
  induction commands generalizing s with
  | nil => cases h; constructor <;> rfl
  | cons i rest ih =>
    cases he : exec i s with
    | next u =>
      rw [execAll_cons he] at h
      exact (exec_next i s u he).effect.keepsHostSide.trans (ih h)
    | fault | refused => rw [execAll, he] at h; cases h

theorem SameInputs.stored (s : State) (a : Nat) (bs : List Byte) : SameInputs s (s.writeBuf a bs).succeed :=
  ⟨rfl, rfl, rfl, rfl⟩

section
variable {a : Nat} {s : State}

theorem exec_patch_of_fits (fits : a + 2 ≤ 256) : exec (.patch a) s = .next (s.writeBuf a (be16 s.result)).succeed :=
  ifFits_of_le s a 2 _ fits

theorem exec_serNtp_of_fits (fits : a + 48 ≤ 256) : exec (.serNtp a) s = .next (s.writeBuf a ntpRequest).succeed :=
  ifFits_of_le s a 48 _ fits

theorem exec_serUdp_of_fits (fits : a + 8 ≤ 256) : exec (.serUdp a) s = .next (s.writeBuf a (udpHeader s 0x0000)).succeed :=
  ifFits_of_le s a 8 _ fits

theorem exec_serPsh_of_checks (fits : a + 12 ≤ 256) (src : s.srcValid = true) (dst : s.dstValid = true) :
    exec (.serPsh a) s = .next (s.writeBuf a (pseudoHeader s (BitVec.ofNat 16 udpLen))).succeed :=
  (ifFits_of_le s a 12 _ fits).trans (ifResolved_of_valid s _ src dst)

theorem exec_serIp_of_checks (fits : a + 20 ≤ 256) (src : s.srcValid = true) (dst : s.dstValid = true) :
    exec (.serIp a) s = .next (s.writeBuf a (ipHeader s 0x0000)).succeed :=
  (ifFits_of_le s a 20 _ fits).trans (ifResolved_of_valid s _ src dst)

end

/-- CSUM over a layout with a zero field, then PATCH of the sum into the field (R145, R147). -/
theorem execAll_csum_patch {layout : Half → List Byte} {k a n : Nat} {s : State} (field : FieldAt layout k)
    (fits : a + n ≤ 256) (inside : k + 2 ≤ n) (len : (layout 0x0000).length = n) (holds : HoldsAt s.buf a (layout 0x0000)) :
    ∃ t, execAll [.csum a n, .patch (a + k)] s = .next t ∧ HoldsAt t.buf a (layout (checksum (layout 0x0000))) ∧
      t.result = checksum (layout 0x0000) ∧ t.acc = csumAcc (layout 0x0000) := by
  refine ⟨_, (execAll_cons (exec_csum_of_holdsAt fits len holds) _).trans
    (execAll_cons (exec_patch_of_fits (by omega)) []), ?_, rfl, rfl⟩
  rw [State.succeed_buf]
  exact field.writeBuf_holdsAt _ holds

/-- Back to front, the serializers put together what the UDP checksum is over, its field zero (R206). -/
theorem execAll_serialize {q : Nat} {s : State} (fits : q + 68 ≤ 256) (src : s.srcValid = true) (dst : s.dstValid = true) :
    ∃ t, execAll [.serNtp (q + 20), .serUdp (q + 12), .serPsh q] s = .next t ∧
      HoldsAt t.buf q (udpSumInput s 0x0000) := by
  refine ⟨_, (execAll_cons (exec_serNtp_of_fits (by omega)) _).trans ((execAll_cons (exec_serUdp_of_fits (by omega)) _).trans
    (execAll_cons (exec_serPsh_of_checks (by omega) (by simpa using src) (by simpa using dst)) [])), ?_⟩
  rw [(SameInputs.stored _ _ _).pseudoHeader_eq, (SameInputs.stored _ _ _).pseudoHeader_eq,
    (SameInputs.stored _ _ _).udpHeader_eq, State.succeed_buf, udpSumInput, List.append_assoc]
  refine State.writeBuf_holdsAt_before ?_
  rw [State.succeed_buf]
  refine State.writeBuf_holdsAt_before ?_
  rw [State.succeed_buf]
  exact State.writeBuf_holdsAt s (q + 20) ntpRequest

/-- SER_IP, then COPY of a payload apart from the header right behind it (R206). -/
theorem execAll_serIp_copy {f b l : Nat} {s : State} {bs : List Byte} (fitsTo : f + 20 + l ≤ 256) (fitsFrom : b + l ≤ 256)
    (apart : b + l ≤ f ∨ f + 20 ≤ b) (src : s.srcValid = true) (dst : s.dstValid = true) (len : bs.length = l)
    (holds : HoldsAt s.buf b bs) :
    ∃ t, execAll [.serIp f, .copy (f + 20) b l] s = .next t ∧ HoldsAt t.buf f (ipHeader s 0x0000 ++ bs) := by
  have kept : HoldsAt (s.writeBuf f (ipHeader s 0x0000)).succeed.buf b bs := by
    rw [State.succeed_buf]
    exact State.writeBuf_holdsAt_of_apart (by rwa [len]) holds
  refine ⟨_, (execAll_cons (exec_serIp_of_checks (by omega) src dst) _).trans
    (execAll_cons (exec_copy_of_holdsAt fitsTo fitsFrom len kept) []), ?_⟩
  rw [State.succeed_buf]
  refine State.writeBuf_holdsAt_after ?_
  rw [State.succeed_buf]
  exact State.writeBuf_holdsAt s f _

/-- Settles O30: the scratch area is serialized and its sum patched in, its UDP part is moved behind SER_IP's header, and the
frame's sum is patched in; the input registers stay throughout. -/
theorem primitivesBuildTheFrame : Obligations.PrimitivesBuildTheFrame := by
  intro f q s fits fitsScratch apart src dst
  obtain ⟨t1, run1, scratch⟩ := execAll_serialize fitsScratch src dst
  obtain ⟨t2, run2, summed, -, -⟩ :=
    execAll_csum_patch (udpSumInput_fieldAt s) fitsScratch (by decide) (udpSumInput_length s _) scratch
  have keeps : KeepsHostSide s t2 := execAll_keepsHostSide ((execAll_append run1 _).trans run2)
  rw [← frameUdpCsum_eq_checksum, udpSumInput, List.append_assoc] at summed
  obtain ⟨-, payload⟩ := (holdsAt_append_iff _ q _ _).1 summed
  obtain ⟨t3, run3, unpatched⟩ := execAll_serIp_copy (f := f) (b := q + 12) (l := 56) (by omega) (by omega) (by omega)
    (keeps.srcValid.trans src) (keeps.dstValid.trans dst) (by simp) payload
  rw [keeps.sameInputs.ipHeader_eq, ← List.append_assoc] at unpatched
  obtain ⟨u, run4, built, hresult, hacc⟩ :=
    execAll_csum_patch (frame_fieldAt s) fits (by decide) (frame_length s _) unpatched
  refine ⟨_, u, exec_assemble fits src dst,
    (execAll_append run1 _).trans ((execAll_append run2 _).trans ((execAll_append run3 _).trans run4)), fun k hk => ?_, hresult,
    hacc⟩
  rw [s.assembled_holdsAt f k hk]
  exact built k hk

end Sys2Proof.Machine
end

section
/-! The errors of commands: a failed command has written ERR and ERRCODE only (R232), and which check raised its error (R233). -/

namespace Sys2Proof.Machine

theorem ErrorCode.code_bounds (e : ErrorCode) : 1 ≤ e.code.toNat ∧ e.code.toNat ≤ 4 := by
  cases e <;> decide

/-- An effect that leaves ERR = 1 is the raising of an error: every other one ends in R100 step 6. -/
theorem ExecEffect.eq_raise_of_err {s t : State} {i : Instr} (effect : ExecEffect s i t) (failed : t.err = true) :
    ∃ e, t = s.raise e := by
  cases effect with
  | raised i e => exact ⟨e, rfl⟩
  | stored | summed | assembled | decoded => cases failed

theorem ExecNext.precise_of_err {s t : State} {i : Instr} (h : ExecNext s i t) (failed : t.err = true) :
    t = { s with err := true, errcode := t.errcode } ∧ 1 ≤ t.errcode.toNat ∧ t.errcode.toNat ≤ 4 := by
  obtain ⟨e, rfl⟩ := h.effect.eq_raise_of_err failed
  exact ⟨rfl, e.code_bounds⟩

/-- Settles O31: a command, and a command word of any kind, fails by raising an error. -/
theorem failedCommandIsPrecise : Obligations.FailedCommandIsPrecise := by
  refine ⟨fun i s t h failed => (exec_next i s t h).precise_of_err failed, fun w s t h failed => ?_⟩
  obtain ⟨i, hi⟩ := executeWord_next w s t h
  exact hi.precise_of_err failed

theorem executeWord_of_illegal {w : Word} {why : DecodeError} (h : decode w = .illegal why) (s : State) :
    executeWord w s = .next (s.raise .illegal) := by
  rw [executeWord, h]

/-- A range that does not fit is RANGE whatever the addresses and the lengths: R100 step 3 comes first. -/
theorem exec_of_range_outside {i : Instr} (s : State) (outside : ∃ r ∈ i.ranges, 256 < r.1 + r.2) :
    exec i s = .next (s.raise .range) := by
  cases i with
  | nop | reserved => simp [Instr.ranges] at outside
  | copy a b l => exact exec_copy_of_not_fits s (by simpa [Instr.ranges] using outside)
  | csum a | pcsum a | patch a | serIp a | serUdp a | serPsh a | serNtp a | assemble a | decodeNtp a | zero a =>
    simp only [Instr.ranges, List.mem_singleton, exists_eq_left] at outside
    exact ifFits_of_gt s a _ _ outside

/-- With its range in BUF, a command that needs an address that is missing is UNRESOLVED: R100 step 4 comes next. -/
theorem exec_of_unresolved {i : Instr} {s : State} (fit : ∀ r ∈ i.ranges, r.1 + r.2 ≤ 256) (needs : i.needsAddresses = true)
    (missing : s.srcValid = false ∨ s.dstValid = false) : exec i s = .next (s.raise .unresolved) := by
  cases i with
  | pcsum a | serIp a | serPsh a | assemble a =>
    exact (ifFits_of_le s a _ _ (fit _ (.head _))).trans (ifResolved_of_not_valid s _ missing)
  | nop | csum | patch | serUdp | serNtp | decodeNtp | copy | zero | reserved => cases needs

/-- The cause an error has (R231), for the command that raises it. -/
inductive ErrorCause (s : State) : Instr → ErrorCode → Prop where
  | illegal (op : BitVec 4) (rest : BitVec 28) : ErrorCause s (.reserved op rest) .illegal
  | range {i : Instr} (outside : ∃ r ∈ i.ranges, 256 < r.1 + r.2) : ErrorCause s i .range
  | unresolved {i : Instr} (needs : i.needsAddresses = true) (missing : s.srcValid = false ∨ s.dstValid = false) :
      ErrorCause s i .unresolved
  | length (a l : Nat) : ErrorCause s (.pcsum a l) .length

/-- A next state that `r` answers for command i has ERRCODE 0, or the code of an error that has its cause. -/
def ErrorsHaveCause (s : State) (i : Instr) (r : Result) : Prop :=
  ∀ t, r = .next t → t.errcode = 0 ∨ ∃ e, ErrorCause s i e ∧ t.errcode = e.code

namespace ErrorsHaveCause

variable {s : State} {i : Instr}

theorem succeed (u : State) : ErrorsHaveCause s i (.next u.succeed) := by
  intro t h
  cases h
  exact .inl rfl

theorem raise {e : ErrorCode} (cause : ErrorCause s i e) : ErrorsHaveCause s i (.next (s.raise e)) := by
  intro t h
  cases h
  exact .inr ⟨e, cause, rfl⟩

theorem ifFits {a n : Nat} {body : Result} (named : (a, n) ∈ i.ranges) (rest : ErrorsHaveCause s i body) :
    ErrorsHaveCause s i (ifFits s a n body) := by
  intro t h
  rcases ifFits_next s t a n body h with ⟨outside, rfl⟩ | ⟨_, h⟩
  · exact .inr ⟨.range, .range ⟨(a, n), named, outside⟩, rfl⟩
  · exact rest t h

theorem ifResolved {body : Result} (needs : i.needsAddresses = true) (rest : ErrorsHaveCause s i body) :
    ErrorsHaveCause s i (ifResolved s body) := by
  intro t h
  rcases ifResolved_next s t body h with ⟨missing, rfl⟩ | ⟨_, _, h⟩
  · exact .inr ⟨.unresolved, .unresolved needs missing, rfl⟩
  · exact rest t h

theorem withBytes {a n : Nat} {body : List Byte → Result} (rest : ∀ bs, ErrorsHaveCause s i (body bs)) :
    ErrorsHaveCause s i (withBytes s a n body) := by
  intro t h
  obtain ⟨bs, _, _, h⟩ := withBytes_next s t a n body h
  exact rest bs t h

end ErrorsHaveCause

/-- Every error a command raises has its cause: its checks are those of R100, each in front of the rest of its rule. -/
theorem exec_errorsHaveCause (i : Instr) (s : State) : ErrorsHaveCause s i (exec i s) := by
  cases i with
  | nop => exact .succeed s
  | reserved op rest => exact .raise (.illegal op rest)
  | patch | serUdp | serNtp | zero => exact .ifFits (.head _) (.succeed _)
  | serIp | serPsh | assemble => exact .ifFits (.head _) (.ifResolved rfl (.succeed _))
  | csum => exact .ifFits (.head _) (.withBytes fun _ => .succeed _)
  | decodeNtp => exact .ifFits (.head _) (.withBytes fun _ => .withBytes fun _ => .succeed _)
  | copy => exact .ifFits (.head _) (.ifFits (.tail _ (.head _)) (.withBytes fun _ => .succeed _))
  | pcsum a l =>
    have badLength : ErrorsHaveCause s (.pcsum a l) (.next (s.raise .length)) := .raise (.length a l)
    refine .ifFits (.head _) (.ifResolved rfl ?_)
    split
    · exact badLength
    · refine .withBytes fun field => ?_
      split
      · exact .withBytes fun _ => .succeed _
      · exact badLength

/-- With the checks of R100 steps 2 to 4 passed, LENGTH is the one error left, and PCSUM the one command that raises it. -/
theorem errcode_of_checks {i : Instr} {s t : State} (assigned : i.isReserved = false)
    (fit : ∀ r ∈ i.ranges, r.1 + r.2 ≤ 256)
    (resolved : i.needsAddresses = false ∨ (s.srcValid = true ∧ s.dstValid = true)) (h : exec i s = .next t) :
    t.errcode = 0 ∨ (t.errcode = 4 ∧ ∃ a l, i = .pcsum a l) := by
  refine (exec_errorsHaveCause i s t h).imp_right fun ⟨e, cause, code⟩ => ?_
  cases cause with
  | illegal => cases assigned
  | range outside =>
    obtain ⟨r, named, gt⟩ := outside
    exact absurd (fit r named) (by omega)
  | unresolved needs missing =>
    rcases resolved with unneeded | ⟨src, dst⟩
    · simp [unneeded] at needs
    · simp [src, dst] at missing
  | length a l => exact ⟨code, a, l, rfl⟩

/-- Settles O32: a check that fails raises its error whatever comes after it, and where all pass only LENGTH has a cause. -/
theorem errorOrder : Obligations.ErrorOrder := by
  refine ⟨fun w why s illegal => executeWord_of_illegal illegal s, fun i s => ⟨fun reserved => ?_,
    fun _ outside => exec_of_range_outside s outside, fun _ fit needs missing => exec_of_unresolved fit needs missing,
    fun assigned fit resolved t h => errcode_of_checks assigned fit resolved h⟩⟩
  cases i with
  | reserved op rest => exact exec_reserved op rest s
  | _ => cases reserved

end Sys2Proof.Machine
end

section
/-! The reset input, and where the busy-hazard interval and the BUSY bit last read change (R260, R262, R269). -/

namespace Sys2Proof.Machine

/-- Settles O39: where reset moves next the step is `applyReset`, whatever the state. -/
theorem resetInput : Obligations.ResetInput :=
  step_reset

/-- An accepted CMD write is the acceptance of its word (R28). -/
theorem writeReg_cmd_of_idle (w : Word) (s : State) (idle : s.pending = none) : writeReg .cmd w s = s.accept w := by
  rw [writeReg, writeCmd, if_neg (by simp [State.busy, idle])]

/-- A CMD write dropped while BUSY = 1 sets DROP and nothing else (R28). -/
theorem writeReg_cmd_of_busy (w : Word) (s : State) (busy : s.pending ≠ none) : writeReg .cmd w s = { s with drop := true } := by
  rw [writeReg, writeCmd, if_pos (by simp [State.busy, Option.isSome_iff_ne_none, busy])]

theorem writeReg_lastPoll (r : Reg) (w : Word) (s : State) : (writeReg r w s).lastPoll = s.lastPoll := by
  rcases writeReg_cases r w s with ⟨_, _, e⟩ | ⟨_, _, e⟩ | ⟨_, _, e⟩ | ⟨_, e⟩ | ⟨_, e⟩ | ⟨_, e⟩ | ⟨_, e⟩ | e <;> rw [e]
  rfl

/-- What a step does to the hazard interval and the BUSY bit last read: reset closes the interval, a STATUS read of BUSY = 0 closes it
and is recorded, an accepted CMD write opens it, and any other step leaves both alone. -/
inductive IntervalNext (s t : State) : Prop where
  | reset (rest : List Turn) (moves : s.agenda = .reset :: rest) (window : t.window = false) (lastPoll : t.lastPoll = s.lastPoll)
  | poll (rest : List Turn) (moves : s.agenda = .host (.read .word (Config.base + 0x004)) :: rest)
      (window : t.window = (s.window && s.pending.isSome)) (lastPoll : t.lastPoll = some s.pending.isSome)
  | accepted (rest : List Turn) (w : Word) (moves : s.agenda = .host (.write .word (Config.base + 0x000) w) :: rest)
      (idle : s.pending = none) (window : t.window = true) (lastPoll : t.lastPoll = s.lastPoll)
  | kept (window : t.window = s.window) (lastPoll : t.lastPoll = s.lastPoll)

theorem HostNext.interval {s t : State} {x : BusAccess} {rest : List Turn} (access : HostNext { s with agenda := rest } x t)
    (moves : s.agenda = .host x :: rest) : IntervalNext s t := by
  cases access with
  | readReg off inSpace aligned =>
    by_cases status : regAt off = .status
    · obtain rfl : off = 0x004 := (regAt_eq_iff off inSpace aligned).2.1.1 status
      exact .poll rest moves (by simp [closesWindow, status, State.busy]) rfl
    · exact .kept (by simp [closesWindow, status]) (by simp [lastPollAfter_eq, status])
  | writeReg off w inSpace aligned =>
    by_cases cmd : regAt off = .cmd
    · obtain rfl : off = 0x000 := (regAt_eq_iff off inSpace aligned).1.1 cmd
      by_cases idle : s.pending = none
      · rw [cmd, writeReg_cmd_of_idle w { s with agenda := rest } idle]
        exact .accepted rest w moves idle rfl rfl
      · rw [cmd, writeReg_cmd_of_busy w { s with agenda := rest } idle]
        exact .kept rfl rfl
    · exact .kept (writeReg_window _ w _ cmd) (writeReg_lastPoll _ w _)
  | readBuf | writeBuf => exact .kept rfl rfl

/-- Everything but a reset or a HOST access keeps both fields, and a HOST access is one of `HostNext.interval`. -/
theorem step_interval (s t : State) (h : step s = .next t) : IntervalNext s t := by
  cases step_next s t h with
  | idle => exact .kept rfl rfl
  | command rest w i u moves busy exec =>
    have keeps := exec.effect.keepsHostSide
    exact .kept keeps.window keeps.lastPoll
  | host rest x t moves access => exact access.interval moves
  | reset rest moves => exact .reset rest moves rfl rfl

/-- Settles O54: of the four ways, one opens the interval, and two can close it. -/
theorem hazardIntervalEnds : Obligations.HazardIntervalEnds := by
  intro s t h
  cases step_interval s t h with
  | reset rest moves window => exact ⟨fun _ opened => (by simp [window] at opened), fun _ _ => .inr ⟨rest, moves⟩⟩
  | poll rest moves window =>
    refine ⟨fun wasClosed opened => (by simp [window, wasClosed] at opened), fun wasOpen closed => ?_⟩
    exact .inl ⟨by simpa [window, wasOpen] using closed, rest, moves⟩
  | accepted rest w moves idle window =>
    exact ⟨fun _ _ => ⟨idle, w, rest, moves⟩, fun _ closed => (by simp [window] at closed)⟩
  | kept window =>
    exact ⟨fun wasClosed opened => (by simp [window, wasClosed] at opened),
      fun wasOpen closed => (by simp [window, wasOpen] at closed)⟩

end Sys2Proof.Machine
end

section
/-! The accesses R262 forbids in the hazard interval, and those it does not. -/

namespace Sys2Proof.Machine

/-- The offsets whose registers R262 forbids the HOST to read or to write in the hazard interval. -/
theorem regAt_hazard_iff : ∀ off, off < 0x100 → off % 4 = 0 →
    (readHazard (regAt off) = true ↔ off ∈ resultOffsets) ∧
    (writeHazard (regAt off) = true ↔ off ∈ [0x010, 0x014, 0x018, 0x01C]) := by
  decide +kernel

/-- CMD, STATUS, the input registers and the reserved offsets may be read in the interval. -/
theorem readHazard_regAt_of_readable (off : Nat) (inSpace : off < 0x100) (aligned : off % 4 = 0)
    (readable : off ≤ 0x004 ∨ (0x010 ≤ off ∧ off ≤ 0x01C) ∨ 0x048 ≤ off) : readHazard (regAt off) = false := by
  rw [← Bool.not_eq_true, (regAt_hazard_iff off inSpace aligned).1]
  simp only [resultOffsets, List.mem_cons, List.not_mem_nil, or_false]
  omega

/-- No write that R27 ignores is a hazard (log 11). -/
theorem writeHazard_regAt_of_readOnly (off : Nat) (inSpace : off < 0x100) (aligned : off % 4 = 0)
    (readOnly : off = 0x008 ∨ off = 0x00C ∨ 0x020 ≤ off) : writeHazard (regAt off) = false := by
  rw [← Bool.not_eq_true, (regAt_hazard_iff off inSpace aligned).2]
  simp only [List.mem_cons, List.not_mem_nil, or_false]
  omega

/-- A register read that R262 forbids stops the model. -/
theorem step_readReg_hazard (s : State) (rest : List Turn) (off : Nat) (inSpace : off < 0x100) (aligned : off % 4 = 0)
    (hazard : (s.window && readHazard (regAt off)) = true)
    (moves : s.agenda = .host (.read .word (Config.base + off)) :: rest) : step s = .fault .hazard := by
  rw [step_host s _ rest moves, hostTurn_read _ off _ (by omega), accessAt, if_pos (show off < Config.bufBase from inSpace),
    readRegSpace, if_pos ⟨rfl, aligned⟩, if_pos hazard]

/-- In the interval an aligned BUF read is a HAZARD before any byte is looked at (log 10). -/
theorem step_readBuf_hazard (s : State) (rest : List Turn) (width : Width) (a : Nat) (inBuf : a < 256)
    (aligned : a % width.bytes = 0) (opened : s.window = true)
    (moves : s.agenda = .host (.read width (Config.base + (0x100 + a))) :: rest) : step s = .fault .hazard := by
  rw [step_host s _ rest moves, hostTurn_read_buf width a _ inBuf, readBufWindow,
    if_pos (bufAligned_of_mod width a inBuf aligned), if_pos opened]

/-- No register write closes the interval. -/
theorem writeReg_window_of_open (r : Reg) (w : Word) (s : State) (opened : s.window = true) : (writeReg r w s).window = true := by
  by_cases cmd : r = .cmd
  · subst cmd
    by_cases idle : s.pending = none
    · rw [writeReg_cmd_of_idle w s idle, State.accept_window]
    · rw [writeReg_cmd_of_busy w s idle, opened]
  · rw [writeReg_window r w s cmd, opened]

/-- Settles O50: each space tests the interval by the register or for all of BUF; CMD, STATUS and what R27 ignores are in neither
test. -/
theorem busyHazard : Obligations.BusyHazard := by
  refine ⟨fun s rest w opened => ⟨fun width a inBuf aligned => ⟨fun moves => ?_, fun moves => ?_⟩, fun off input moves => ?_,
    fun off result moves => ?_, fun off aligned readable moves => ?_, fun off writable moves => ?_,
    fun off aligned inSpace readOnly moves => ?_⟩, fun s rest w idle moves => ?_⟩
  · exact step_readBuf_hazard s rest width a inBuf aligned opened moves
  · rw [step_writeBuf s rest width a w inBuf aligned moves, if_pos opened]
  · obtain ⟨inSpace, aligned⟩ := (by decide : ∀ off ∈ [0x010, 0x014, 0x018, 0x01C], off < 0x100 ∧ off % 4 = 0) off input
    have hazard := (regAt_hazard_iff off inSpace aligned).2.2 input
    exact step_writeReg_hazard s rest off w inSpace aligned (by simp [opened, hazard]) moves
  · obtain ⟨inSpace, aligned⟩ := (by decide : ∀ off ∈ resultOffsets, off < 0x100 ∧ off % 4 = 0) off result
    have hazard := (regAt_hazard_iff off inSpace aligned).1.2 result
    exact step_readReg_hazard s rest off inSpace aligned (by simp [opened, hazard]) moves
  · have inSpace : off < 0x100 := by omega
    have noHazard := readHazard_regAt_of_readable off inSpace aligned (by omega)
    refine ⟨_, step_readReg s rest off inSpace aligned (by simp [noHazard]) moves, ?_⟩
    simp [opened, closesWindow, (regAt_eq_iff off inSpace aligned).2.1, State.busy, beq_eq_decide]
  · obtain ⟨inSpace, aligned, noHazard⟩ :=
      (by decide : ∀ off ∈ [0x000, 0x004], off < 0x100 ∧ off % 4 = 0 ∧ writeHazard (regAt off) = false) off writable
    exact ⟨_, step_writeReg s rest off w inSpace aligned (by simp [noHazard]) moves, writeReg_window_of_open _ w _ opened⟩
  · have noHazard := writeHazard_regAt_of_readOnly off inSpace aligned readOnly
    rw [step_writeReg s rest off w inSpace aligned (by simp [noHazard]) moves,
      writeReg_regAt_of_readOnly off w _ inSpace aligned readOnly]
  · refine ⟨_, step_writeReg s rest 0x000 w (by decide) rfl (Bool.and_false _) moves, ?_⟩
    exact congrArg State.window (writeReg_cmd_of_idle w { s with agenda := rest } idle)

end Sys2Proof.Machine
end

section
/-! A pending command completes once the HOST's polls are used up (R267, log 2). -/

namespace Sys2Proof.Machine

theorem runsTo_zero_self (s : State) : RunsTo 0 s s := rfl

/-- Any command word completes over a defined BUF: an undecodable one raises ILLEGAL (R105). -/
theorem executeWord_completes (w : Word) (s : State) (defined : ∀ k, k < 256 → s.buf.read? k ≠ none) :
    ∃ t, executeWord w s = .next t := by
  rw [executeWord]
  split
  case h_1 i _ => exact commandsCompleteOnDefinedBuf i s defined
  case h_2 => exact ⟨_, rfl⟩

/-- The ENGINE's step with a command pending over a defined BUF leads to BUSY = 0 (R46). -/
theorem step_completes_of_engineMoves (s : State) (rest : List Turn) (moves : EngineMoves s rest) (busy : s.pending ≠ none)
    (defined : ∀ k, k < 256 → s.buf.read? k ≠ none) : ∃ t, step s = .next t ∧ t.pending = none := by
  obtain ⟨w, hw⟩ := Option.ne_none_iff_exists'.1 busy
  obtain ⟨u, hu⟩ := executeWord_completes w { s with agenda := rest } defined
  exact ⟨u.finish, by rw [step_of_engineMoves_busy s rest w moves hw, hu]; rfl, rfl⟩

/-- A STATUS read takes its turn and leaves BUF and the pending word alone (R82). -/
theorem step_readStatus_keeps (s : State) (rest : List Turn)
    (moves : s.agenda = .host (.read .word (Config.base + 0x004)) :: rest) :
    ∃ t, step s = .next t ∧ t.buf = s.buf ∧ t.pending = s.pending ∧ t.agenda = rest :=
  ⟨_, step_readReg s rest 0x004 (by decide) rfl (Bool.and_false _) moves, rfl, rfl, rfl⟩

/-- Settles O59 by induction on the polls: a STATUS read leaves BUF and the pending word alone, and after the last the ENGINE moves. -/
theorem polledCommandCompletes : Obligations.PolledCommandCompletes := by
  intro n
  induction n with
  | zero =>
    intro s defined busy moves
    obtain ⟨t, hstep, idle⟩ := step_completes_of_engineMoves s [] (.inl ⟨moves, rfl⟩) busy defined
    exact ⟨t, (runsTo_succ 0 s t).2 ⟨t, hstep, runsTo_zero_self t⟩, idle⟩
  | succ n ih =>
    intro s defined busy moves
    obtain ⟨u, hstep, buf, pending, agenda⟩ := step_readStatus_keeps s _ moves
    obtain ⟨t, run, idle⟩ := ih u (by rwa [buf]) (by rwa [pending]) agenda
    exact ⟨t, (runsTo_succ (n + 1) s t).2 ⟨u, hstep, run⟩, idle⟩

end Sys2Proof.Machine
end

section
/-! How a run stands after some steps, in terms of the states it goes through (R236, R269). -/

namespace Sys2Proof.Machine

/-- None of the states a run from s is in before its k-th step has been taken ends it (R269). -/
def NoEndBefore (k : Nat) (s : State) : Prop := ∀ j u, j < k → RunsTo j s u → ¬ HasEnded u

theorem noEndBefore_zero (s : State) : NoEndBefore 0 s := fun _ _ hj => absurd hj (Nat.not_lt_zero _)

theorem NoEndBefore.mono {j k : Nat} {s : State} (before : NoEndBefore k s) (le : j ≤ k) : NoEndBefore j s :=
  fun i u hi => before i u (Nat.lt_of_lt_of_le hi le)

/-- A run looks for its end in its first state and then in the run from the next one. -/
theorem noEndBefore_succ_iff {k : Nat} {s t : State} (hstep : step s = .next t) :
    NoEndBefore (k + 1) s ↔ ¬ HasEnded s ∧ NoEndBefore k t := by
  constructor
  · intro before
    refine ⟨before 0 s (Nat.zero_lt_succ k) (runsTo_zero_self s), fun j u hj run => ?_⟩
    exact before (j + 1) u (Nat.succ_lt_succ hj) ((runsTo_succ j s u).2 ⟨t, hstep, run⟩)
  · rintro ⟨here, later⟩ j u hj run
    cases j with
    | zero => rwa [← (runsTo_zero s u).1 run]
    | succ j =>
      obtain ⟨v, hv, run⟩ := (runsTo_succ j s u).1 run
      cases hstep.symm.trans hv
      exact later j u (Nat.lt_of_succ_lt_succ hj) run

theorem noEndBefore_one {s : State} (here : ¬ HasEnded s) : NoEndBefore 1 s := by
  intro j u hj run
  obtain rfl := Nat.lt_one_iff.1 hj
  rwa [← (runsTo_zero s u).1 run]

theorem State.runEnded_eq_false {s : State} (here : ¬ HasEnded s) : s.runEnded = false := by
  rwa [← Bool.not_eq_true, State.runEnded_iff]

theorem runProgram_zero_of_not_ended (s : State) (here : ¬ HasEnded s) : runProgram 0 s = .running s :=
  if_neg (by rwa [State.runEnded_iff])

/-- The steps a run takes before it could have ended may be taken off it. -/
theorem runProgram_of_runsTo (k m : Nat) (s t : State) (run : RunsTo k s t) (before : NoEndBefore k s) :
    runProgram (k + m) s = runProgram m t := by
  induction k generalizing s with
  | zero => rw [(runsTo_zero s t).1 run, Nat.zero_add]
  | succ k ih =>
    obtain ⟨u, hstep, run⟩ := (runsTo_succ k s t).1 run
    obtain ⟨here, later⟩ := (noEndBefore_succ_iff hstep).1 before
    rw [Nat.add_right_comm, runProgram_succ _ s (State.runEnded_eq_false here), hstep]
    exact ih u run later

/-- A run that reaches t with steps left, not having ended there or before, still has t's step to take. -/
theorem runProgram_of_runsTo_lt {k n : Nat} {s t : State} (within : k < n) (run : RunsTo k s t)
    (before : NoEndBefore (k + 1) s) : ∃ m, runProgram n s = runProgram (m + 1) t ∧ t.runEnded = false := by
  obtain ⟨m, rfl⟩ := Nat.exists_eq_add_of_lt within
  exact ⟨m, runProgram_of_runsTo k (m + 1) s t run (before.mono k.le_succ),
    State.runEnded_eq_false (before k t k.lt_succ_self run)⟩

/-- How a run from s followed for n steps stands, by the states it went through. -/
inductive RunStands (n : Nat) (s : State) : RunOutcome → Prop where
  | ended (k : Nat) (t : State) (within : k ≤ n) (run : RunsTo k s t) (ended : HasEnded t) (before : NoEndBefore k s) :
      RunStands n s (.ended (observe t none))
  | stopped (k : Nat) (t : State) (r : Fault) (within : k < n) (run : RunsTo k s t) (fault : step t = .fault r)
      (before : NoEndBefore (k + 1) s) : RunStands n s (.stopped (observe t (some r)))
  | running (t : State) (run : RunsTo n s t) (before : NoEndBefore (n + 1) s) : RunStands n s (.running t)
  | refused (k : Nat) (t : State) (why : Refusal) (within : k < n) (run : RunsTo k s t) (refusal : step t = .refused why)
      (before : NoEndBefore (k + 1) s) : RunStands n s (.refused why)

theorem RunStands.runProgram_eq {n : Nat} {s : State} {o : RunOutcome} (h : RunStands n s o) : runProgram n s = o := by
  cases h with
  | ended k t within run ended before =>
    obtain ⟨m, rfl⟩ := Nat.exists_eq_add_of_le within
    rw [runProgram_of_runsTo k m s t run before, runProgram_of_ended m t ((State.runEnded_iff t).2 ended)]
  | stopped k t r within run fault before =>
    obtain ⟨m, reached, here⟩ := runProgram_of_runsTo_lt within run before
    rw [reached, runProgram_succ m t here, fault]
  | running t run before =>
    rw [← Nat.add_zero n, runProgram_of_runsTo n 0 s t run (before.mono n.le_succ),
      runProgram_zero_of_not_ended t (before n t n.lt_succ_self run)]
  | refused k t why within run refusal before =>
    obtain ⟨m, reached, here⟩ := runProgram_of_runsTo_lt within run before
    rw [reached, runProgram_succ m t here, refusal]

/-- A run that has not ended stands one step later as the run from its next state does. -/
theorem RunStands.of_step {n : Nat} {s t : State} {o : RunOutcome} (here : ¬ HasEnded s) (hstep : step s = .next t)
    (h : RunStands n t o) : RunStands (n + 1) s o := by
  have longer : ∀ k u, RunsTo k t u → RunsTo (k + 1) s u := fun k u run => (runsTo_succ k s u).2 ⟨t, hstep, run⟩
  have notBefore : ∀ k, NoEndBefore k t → NoEndBefore (k + 1) s := fun k later => (noEndBefore_succ_iff hstep).2 ⟨here, later⟩
  cases h with
  | ended k u within run ended before =>
    exact .ended (k + 1) u (Nat.succ_le_succ within) (longer k u run) ended (notBefore k before)
  | stopped k u r within run fault before =>
    exact .stopped (k + 1) u r (Nat.succ_lt_succ within) (longer k u run) fault (notBefore _ before)
  | running u run before => exact .running u (longer n u run) (notBefore _ before)
  | refused k u why within run refusal before =>
    exact .refused (k + 1) u why (Nat.succ_lt_succ within) (longer k u run) refusal (notBefore _ before)

theorem runProgram_stands_of_ended (n : Nat) {s : State} (here : HasEnded s) : RunStands n s (runProgram n s) := by
  rw [runProgram_of_ended n s ((State.runEnded_iff s).2 here)]
  exact .ended 0 s n.zero_le (runsTo_zero_self s) here (noEndBefore_zero s)

/-- How a run stands is always one of the four ways: each case of `runProgram` is one of them. -/
theorem runProgram_stands (n : Nat) (s : State) : RunStands n s (runProgram n s) := by
  induction n generalizing s with
  | zero =>
    by_cases here : HasEnded s
    · exact runProgram_stands_of_ended 0 here
    · rw [runProgram_zero_of_not_ended s here]
      exact .running s (runsTo_zero_self s) (noEndBefore_one here)
  | succ n ih =>
    by_cases here : HasEnded s
    · exact runProgram_stands_of_ended (n + 1) here
    · rw [runProgram_succ n s (State.runEnded_eq_false here)]
      cases hstep : step s with
      | next t => exact .of_step here hstep (ih t)
      | fault r => exact .stopped 0 s r n.succ_pos (runsTo_zero_self s) hstep (noEndBefore_one here)
      | refused why => exact .refused 0 s why n.succ_pos (runsTo_zero_self s) hstep (noEndBefore_one here)

/-- Every register below the reserved offsets is one of the map (R25). -/
theorem regAt_mem_mapRegisters : ∀ off, off < 0x048 → off % 4 = 0 → regAt off ∈ mapRegisters := by
  decide

/-- The BUSY bit last read is the one a STATUS read returned (log 26). -/
theorem lastPoll_of_readStatus {s t : State} {rest : List Turn} (h : step s = .next t)
    (moves : s.agenda = .host (.read .word (Config.base + 0x004)) :: rest) : t.lastPoll = some s.pending.isSome := by
  obtain ⟨v, hv, -⟩ := statusReadReturnsEveryField s rest moves
  cases h.symm.trans hv
  rfl

/-- No step but a STATUS read changes the BUSY bit last read (log 26). -/
theorem reads_status_of_lastPoll_ne {s t : State} (h : step s = .next t) (changed : t.lastPoll ≠ s.lastPoll) :
    ∃ rest, s.agenda = .host (.read .word (Config.base + 0x004)) :: rest := by
  cases step_interval s t h with
  | poll rest moves => exact ⟨rest, moves⟩
  | reset _ _ _ kept | accepted _ _ _ _ _ kept | kept _ kept => exact absurd kept changed

/-- Settles O60: `runProgram` answers how the run stands, and nothing else is an answer; what is observed is read off `observe`. -/
theorem runEndsAndIsObserved : Obligations.RunEndsAndIsObserved := by
  refine ⟨fun n k s t within run ended before => ?_, fun n k s t r within run fault before => ?_, fun n s t run before => ?_,
    fun n s o h => ?_, fun n s o h => ?_, fun s f => ⟨rfl, rfl, fun off aligned mapped => ?_⟩,
    fun s t h => ⟨fun rest moves => lastPoll_of_readStatus h moves, reads_status_of_lastPoll_ne h⟩⟩
  · exact (RunStands.ended k t within run ended before).runProgram_eq
  · exact (RunStands.stopped k t r within run fault fun j u hj => before j u (Nat.le_of_lt_succ hj)).runProgram_eq
  · exact (RunStands.running t run fun j u hj => before j u (Nat.le_of_lt_succ hj)).runProgram_eq
  · cases h ▸ runProgram_stands n s with
    | ended k t within run ended before => exact ⟨k, t, within, run, ended, rfl, before⟩
  · cases h ▸ runProgram_stands n s with
    | stopped k t r within run fault before =>
      exact ⟨k, t, r, within, run, fault, rfl, fun j u hj => before j u (Nat.lt_succ_of_le hj)⟩
  · exact List.mem_map_of_mem (regAt_mem_mapRegisters off mapped aligned)

end Sys2Proof.Machine
end
